-- ==== Sys2Proof/Word.lean ====
section
/-! DEFINITION. The data of the engine: bytes and byte strings (00_scope.md R11). Index 0 of a byte
string is its leftmost byte, the first one transferred on a channel. -/

namespace Sys2Proof

/-- A byte, an 8-bit unsigned value (R11). -/
abbrev Byte := BitVec 8

/-- A byte string: a finite sequence of bytes, index 0 leftmost (R11). -/
abbrev Bytes := List Byte

end Sys2Proof
end

