-- ==== Sys2Proof/Machine/Flags.lean ====
section
/-! DEFINITION. The engine has no condition codes: its one status indication is `RSP_STATUS`
(10_state.md R37). This file gives the status codes of 60_exceptions.md R210. -/

namespace Sys2Proof.Machine

/-- The errors a command can complete with (60_exceptions.md R210). -/
inductive ErrorCode where
  /-- BCC given data that is no positive multiple of the block size, or a key of the wrong length. -/
  | invalidInputLength
  /-- A requested bit length not byte-aligned, or zero for CTR-DF. -/
  | invalidLength
  /-- A requested length beyond the maximum, or an operand beyond `MAX_OPERAND_BYTES`. -/
  | lengthExceeded
  /-- The configured key size fails `keyOK`. -/
  | unsupportedKeySize
  /-- A reserved opcode, non-zero reserved bits, or an unused field in use. -/
  | illegalCommand
  /-- The configured variant does not have what the command needs. -/
  | unsupportedOperation
deriving DecidableEq, Repr

/-- The status of a command that completed with a result, `OK` (R210). -/
def okCode : BitVec 8 := 0x00

/-- The status code of an error (R210). -/
def ErrorCode.code : ErrorCode → BitVec 8
  | .invalidInputLength => 0x01
  | .invalidLength => 0x02
  | .lengthExceeded => 0x03
  | .unsupportedKeySize => 0x04
  | .illegalCommand => 0x05
  | .unsupportedOperation => 0x06

/-- The codes the engine can produce, 0x00 to 0x06; the rest are reserved and never produced (R210). -/
def legalStatus (c : BitVec 8) : Bool := decide (c.toNat ≤ 6)

/-- How the host reads "the command failed" (10_state.md R37). -/
def failedStatus (c : BitVec 8) : Bool := decide (c ≠ okCode)

end Sys2Proof.Machine
end

