-- ==== Sys2Proof/Machine/ByteString.lean ====
section
/-! DEFINITION. Operations on byte strings and the big-endian view of them as numbers (00_scope.md
R11, R12; 20_memory.md R53, R54). `take`, `drop` and `++` are the list operations of those names. R11 defines
`take(s, n)` for `n ≤ len(s)` only; beyond that `take` gives all of `s` and `drop` gives the empty
string (DESIGN CHOICE, log entry 16). -/

namespace Sys2Proof.Machine

/-- `zeros(n)`: `n` bytes of 0x00 (R11). -/
def zeros (n : Nat) : Bytes := List.replicate n 0

/-- `xor(s, t)`: the bytewise exclusive or of two byte strings of one length (R11). -/
def xorBytes (s t : Bytes) : Bytes := List.zipWith (· ^^^ ·) s t

/-- The first `n` consecutive `w`-byte pieces of `s`, in index order. -/
def pieces (w : Nat) : Nat → Bytes → List Bytes
  | 0, _ => []
  | n + 1, s => s.take w :: pieces w n (s.drop w)

/-- `blocks(s, w)`: the consecutive `w`-byte pieces of `s`, in index order (R11). -/
def blocks (s : Bytes) (w : Nat) : List Bytes := pieces w (s.length / w) s

/-- `bytes_be(v, n)`: `v` as `n` bytes, most significant first (R12). The spec defines it for
`v < 2^(8n)`; above that the high part of `v` is dropped (log entry 16). -/
def bytesBE (v : Nat) : Nat → Bytes
  | 0 => []
  | n + 1 => BitVec.ofNat 8 (v / 2 ^ (8 * n)) :: bytesBE v n

/-- `int_be(s)`: the number whose most significant byte is `s[0]`; 0 for the empty string (R12). -/
def intBE (s : Bytes) : Nat := s.foldl (fun acc b => acc * 256 + b.toNat) 0

/-- `ceil(a / b) = (a + b − 1) / b`, for `b > 0` (R12). -/
def ceilDiv (a b : Nat) : Nat := (a + b - 1) / b

end Sys2Proof.Machine
end

