-- ==== Sys2Proof/Config.lean ====
section
/-! DEFINITION. What an implementation fixes: the consumed primitives `E` and `H` (00_scope.md R7)
and the parameters of R8 and R9. The primitives are constants without a body, so a proof holds for
every cipher and every digest. The rest is plain data (`Params`), which State carries as an argument
of the step (log entry 1). -/

namespace Sys2Proof.Config

/-- The cipher behind the cipher port: byte `j` of `E(key, block)`, for the cipher called `id` with
blocks of `blockBytes` bytes (R7, R224). No body: nothing is known of it but its type.
DESIGN CHOICE, safe (log entry 3). -/
opaque cipherByte (id blockBytes : Nat) (key block : Bytes) (j : Nat) : Byte

/-- The digest behind the digest port: byte `j` of `H(message)`, for the digest called `id` with
outputs of `digestBytes` bytes (R7, R224). No body. DESIGN CHOICE, safe (log entry 3). -/
opaque digestByte (id digestBytes : Nat) (message : Bytes) (j : Nat) : Byte

/-- Which cipher is connected to the cipher port. The engine never looks at this name. -/
inductive CipherId where
  /-- An implementation's own cipher, of which nothing is assumed. -/
  | external (id : Nat)
  /-- The toy cipher `E_T` of 95_test_vectors.md section 2, for testing only: it is no part of the
  engine, and serves to run the spec's test configuration TC. -/
  | testET
deriving DecidableEq, Repr

/-- Which digest is connected to the digest port. The engine never looks at this name. -/
inductive DigestId where
  /-- An implementation's own digest, of which nothing is assumed. -/
  | external (id : Nat)
  /-- The toy digest `H_T` of 95_test_vectors.md section 2, for testing only, as `testET`. -/
  | testHT
deriving DecidableEq, Repr

/-- The cipher port: the cipher and its block size in bytes. -/
structure CipherPort where
  id : CipherId
  blockBytes : Nat
deriving DecidableEq, Repr

/-- The digest port: the digest and its output size in bytes. -/
structure DigestPort where
  id : DigestId
  digestBytes : Nat
deriving DecidableEq, Repr

/-- Byte `j` of `E_T(K, X)`: `((X[j] xor K[j]) + K[4 + j]) mod 256` (95_test_vectors.md section 2). -/
def testETByte (key block : Bytes) (j : Nat) : Byte :=
  (block.getD j 0 ^^^ key.getD j 0) + key.getD (4 + j) 0

/-- `Σ_k (k + first) · m[k]`, modulo 256: the second byte of `H_T` for `first = 1`. -/
def weightedSum : Nat → Bytes → Byte
  | _, [] => 0
  | first, b :: m => BitVec.ofNat 8 first * b + weightedSum (first + 1) m

/-- Byte `j` of `H_T(m)`: the length of `m` and the weighted sum of `m`, both modulo 256
(95_test_vectors.md section 2). -/
def testHTByte (message : Bytes) (j : Nat) : Byte :=
  if j = 0 then BitVec.ofNat 8 message.length else weightedSum 1 message

/-- Byte `j` of the answer of the cipher port. -/
def CipherPort.byteOf (p : CipherPort) (key block : Bytes) (j : Nat) : Byte :=
  match p.id with
  | .external id => cipherByte id p.blockBytes key block j
  | .testET => testETByte key block j

/-- Byte `j` of the answer of the digest port. -/
def DigestPort.byteOf (p : DigestPort) (message : Bytes) (j : Nat) : Byte :=
  match p.id with
  | .external id => digestByte id p.digestBytes message j
  | .testHT => testHTByte message j

/-- The implementation parameters of R7 to R9, all but the two functions themselves. -/
structure Params where
  /-- The cipher port: present on the CTR-DF variant (R7). -/
  cipher : CipherPort
  /-- The digest port: present on the HashGen variant (R7). -/
  digest : DigestPort
  /-- `CIPHER_KEY_SIZES`: the key sizes in bits that the cipher supports (R8). -/
  cipherKeySizes : List Nat
  /-- `MAX_DF_BITS` (R9). -/
  maxDfBits : Nat
  /-- `MAX_HASHGEN_BITS` (R9). -/
  maxHashgenBits : Nat
  /-- `MAX_OPERAND_BYTES` (R9). -/
  maxOperandBytes : Nat
deriving DecidableEq, Repr

/-- The default of `MAX_DF_BITS` and of `MAX_HASHGEN_BITS`, `2^19` (R9). -/
def defaultMaxBits : Nat := 524288

/-- The parameters of `State.reset`. The two maxima are the spec's defaults (R9). The sizes, the key
sizes and the operand limit are those of the spec's test configurations TC and TD
(95_test_vectors.md section 2), with primitives of which nothing is assumed.
DESIGN CHOICE, unsafe (log entry 2). -/
def resetParams : Params where
  cipher := { id := .external 0, blockBytes := 4 }
  digest := { id := .external 0, digestBytes := 2 }
  cipherKeySizes := [64]
  maxDfBits := defaultMaxBits
  maxHashgenBits := defaultMaxBits
  maxOperandBytes := 65536

end Sys2Proof.Config
end

