-- ==== Sys2Proof/Syntax.lean ====
section
/-! DEFINITION. Commands (30_encoding.md): the triple a host presents, the nine opcodes, and the
engine's instructions, one constructor for each row of the opcode map R73. -/

namespace Sys2Proof

/-- A command as the host presents it: the 64-bit command word and the two operand byte strings
(R70). -/
structure Command where
  word : BitVec 64
  opa : Bytes
  opb : Bytes
deriving DecidableEq, Repr

/-- The nine opcodes of the opcode map (R73). -/
inductive Opcode where
  | encU32
  | inc
  | bcc
  | ctrDf
  | hashgen
  | dfSeedlen
  | dfStrength
  | dfDerive
  | dfGenerate
deriving DecidableEq, Repr

/-- The engine's instructions: a command with the operands its row of R74 uses. -/
inductive Instr where
  /-- ENC_U32: encode `value` as 4 big-endian bytes (R102). -/
  | encU32 (value : BitVec 32)
  /-- INC: add one to the big-endian `buffer` (R103). -/
  | inc (buffer : Bytes)
  /-- BCC: chaining compression of `data` under `key` (R121). -/
  | bcc (data key : Bytes)
  /-- CTR_DF: `nbits` bits from `seed` by the block-cipher derivation function (R149). -/
  | ctrDf (nbits : BitVec 32) (seed : Bytes)
  /-- HASHGEN: `nbits` bits from the state value `stateValue` by the digest expansion (R176). -/
  | hashgen (nbits : BitVec 32) (stateValue : Bytes)
  /-- DF_SEEDLEN: the configured seed length (R191). -/
  | dfSeedlen
  /-- DF_STRENGTH: the configured security strength (R192). -/
  | dfStrength
  /-- DF_DERIVE: a seed length of bits from `seed` (R193). -/
  | dfDerive (seed : Bytes)
  /-- DF_GENERATE: `nbits` bits from the working state `stateValue` (R194). -/
  | dfGenerate (nbits : BitVec 32) (stateValue : Bytes)
deriving DecidableEq, Repr

/-- The opcode of an instruction. -/
def Instr.opcode : Instr → Opcode
  | .encU32 _ => .encU32
  | .inc _ => .inc
  | .bcc _ _ => .bcc
  | .ctrDf _ _ => .ctrDf
  | .hashgen _ _ => .hashgen
  | .dfSeedlen => .dfSeedlen
  | .dfStrength => .dfStrength
  | .dfDerive _ => .dfDerive
  | .dfGenerate _ _ => .dfGenerate

/-- The scalar operand of an instruction, zero where the row of R74 does not use it. -/
def Instr.scalar : Instr → BitVec 32
  | .encU32 v => v
  | .inc _ => 0
  | .bcc _ _ => 0
  | .ctrDf n _ => n
  | .hashgen n _ => n
  | .dfSeedlen => 0
  | .dfStrength => 0
  | .dfDerive _ => 0
  | .dfGenerate n _ => n

/-- The operand `OPA` of an instruction, empty where the row of R74 does not use it. -/
def Instr.opa : Instr → Bytes
  | .encU32 _ => []
  | .inc b => b
  | .bcc d _ => d
  | .ctrDf _ s => s
  | .hashgen _ v => v
  | .dfSeedlen => []
  | .dfStrength => []
  | .dfDerive s => s
  | .dfGenerate _ v => v

/-- The operand `OPB` of an instruction: the key of BCC, empty everywhere else (R74). -/
def Instr.opb : Instr → Bytes
  | .encU32 _ => []
  | .inc _ => []
  | .bcc _ k => k
  | .ctrDf _ _ => []
  | .hashgen _ _ => []
  | .dfSeedlen => []
  | .dfStrength => []
  | .dfDerive _ => []
  | .dfGenerate _ _ => []

end Sys2Proof
end

