-- ==== Sys2Proof/Machine/State.lean ====
section
/-! DEFINITION. The state of the engine (10_state.md R20 to R32) and of its input ports
(30_encoding.md R84), the reasons a step can stop, and the state right after reset
(70_reset_and_hazards.md R240). -/

namespace Sys2Proof.Machine

/-- The value of `CFG_PRIM`, one bit: 0 is CIPHER, 1 is DIGEST (10_state.md R21; log entry 21). -/
inductive Prim where
  /-- The CTR-DF variant; the primitive `E` is present. -/
  | cipher
  /-- The HashGen variant; the primitive `H` is present. -/
  | digest
deriving DecidableEq, Repr

/-- The configuration registers (10_state.md R21 to R25). No command writes one (R26). -/
structure Cfg where
  /-- `CFG_PRIM` (R21). -/
  prim : Prim
  /-- `CFG_KEYLEN_BITS` (R22). -/
  keylenBits : BitVec 16
  /-- `CFG_OUTLEN_BYTES` (R23). -/
  outlenBytes : BitVec 16
  /-- `CFG_SEEDLEN_BITS` (R24). -/
  seedlenBits : BitVec 32
  /-- `CFG_STRENGTH_BITS` (R25). -/
  strengthBits : BitVec 16
deriving DecidableEq, Repr

/-- The levels of the input ports at one step (30_encoding.md R84). `clk` decides no rule (R248). -/
structure Pins where
  /-- `rst`, active high. -/
  rst : Bool
  /-- `cfg_prim`. -/
  cfgPrim : BitVec 1
  /-- `cfg_keylen_bits`. -/
  cfgKeylenBits : BitVec 16
  /-- `cfg_outlen_bytes`. -/
  cfgOutlenBytes : BitVec 16
  /-- `cfg_seedlen_bits`. -/
  cfgSeedlenBits : BitVec 32
  /-- `cfg_strength_bits`. -/
  cfgStrengthBits : BitVec 16
  /-- `cmd_valid`. -/
  cmdValid : Bool
  /-- `cmd_word`, `opa` and `opb`. -/
  cmd : Command
  /-- `rsp_ready`. -/
  rspReady : Bool
deriving DecidableEq, Repr

/-- `PHASE` (10_state.md R28). While BUSY it carries the command as it stood at acceptance, which is
what the engine reads (70_reset_and_hazards.md R244; log entry 9). -/
inductive Phase where
  /-- No command in progress and no response waiting. -/
  | idle
  /-- `cmd` has been accepted and its response is not yet available. -/
  | busy (cmd : Command)
  /-- The response of the last command has not been taken by the host. -/
  | done
deriving DecidableEq, Repr

/-- A request on a primitive port (30_encoding.md R84). -/
inductive PrimReq where
  /-- `e_req(key, block)`. -/
  | cipher (key block : Bytes)
  /-- `h_req(message)`. -/
  | digest (message : Bytes)
deriving DecidableEq, Repr

/-- The state of the engine, its input ports, and the parameters of the implementation. -/
structure State where
  /-- The model's own: the implementation parameters (00_scope.md R7 to R9; log entry 1). -/
  params : Config.Params
  /-- The configuration registers (10_state.md R21 to R25). -/
  cfg : Cfg
  /-- `K_FIXED`, the fixed-key ROM (10_state.md R27). -/
  kFixed : Vector Byte 32
  /-- `PHASE` (10_state.md R28). -/
  phase : Phase
  /-- `RSP_STATUS` (10_state.md R29). -/
  rspStatus : BitVec 8
  /-- `RSP_LEN` (10_state.md R30). -/
  rspLen : BitVec 32
  /-- `RSP_DATA` (10_state.md R31). -/
  rspData : Bytes
  /-- The engine has seen `rst` at 1 and has not yet handled its fall (70_reset_and_hazards.md R240,
  R241; log entry 7). -/
  inReset : Bool
  /-- The model's own: the requests the last completed command made on the primitive ports, in order
  (30_encoding.md R84; log entry 10). -/
  primReqs : List PrimReq
  /-- The model's own: the present levels of the input ports (30_encoding.md R84; log entry 4). -/
  pins : Pins
  /-- The model's own: the levels the host drives at the steps after this one, in order (log entry
  4). -/
  future : List Pins
deriving DecidableEq, Repr

/-- The reasons the engine stops with a fault. There are none: an error of a command is a status in
its response, after which the engine goes on (60_exceptions.md R210, R214; log entry 14). -/
inductive Fault where
deriving DecidableEq, Repr

/-- The reasons the model gives no next state. -/
inductive Refusal where
  /-- Raised by an arm of `exec` for an instruction without a meaning. No arm raises it. Safe. -/
  | notModelled (mnemonic : String)
  /-- Raised by `step` at the fall of `rst`, and on any state outside reset, when the configuration
  is not well formed: such an engine has no meaning (00_scope.md R10, 60_exceptions.md R226). Safe:
  no claim can be proved of it (log entry 8). -/
  | illFormedConfig
deriving DecidableEq, Repr

/-- The 32 bytes 0x00, 0x01, ..., 0x1F of the fixed constant key (10_state.md R27). -/
def fixedKey : Vector Byte 32 :=
  #v[0x00, 0x01, 0x02, 0x03, 0x04, 0x05, 0x06, 0x07,
     0x08, 0x09, 0x0A, 0x0B, 0x0C, 0x0D, 0x0E, 0x0F,
     0x10, 0x11, 0x12, 0x13, 0x14, 0x15, 0x16, 0x17,
     0x18, 0x19, 0x1A, 0x1B, 0x1C, 0x1D, 0x1E, 0x1F]

/-- The configuration registers of `State.reset`: those of the spec's test configuration TC
(95_test_vectors.md section 2). DESIGN CHOICE, unsafe (log entry 2): the spec's reset value is
whatever the configuration inputs were (R240). -/
def resetCfg : Cfg where
  prim := .cipher
  keylenBits := 64
  outlenBytes := 4
  seedlenBits := 96
  strengthBits := 64

/-- The input ports of `State.reset`: the configuration inputs held at the values that were sampled
(70_reset_and_hazards.md R243), nothing presented. DESIGN CHOICE, unsafe (log entry 4). -/
def resetPins : Pins where
  rst := false
  cfgPrim := 0
  cfgKeylenBits := 64
  cfgOutlenBytes := 4
  cfgSeedlenBits := 96
  cfgStrengthBits := 64
  cmdValid := false
  cmd := ⟨0, [], []⟩
  rspReady := false

/-- The machine right after reset (70_reset_and_hazards.md R240): idle, the response registers at
their reset values, the configuration sampled. -/
def State.reset : State where
  params := Config.resetParams
  cfg := resetCfg
  kFixed := fixedKey
  phase := .idle
  rspStatus := 0x00
  rspLen := 0
  rspData := []
  inReset := false
  primReqs := []
  pins := resetPins
  future := []

end Sys2Proof.Machine
end

