-- ==== Sys2Proof/Machine/Operands.lean ====
section
/-! DEFINITION. What a command reads: the configuration registers as numbers, the fixed key, the
primitives, and the two predicates on the configuration, `keyOK` (00_scope.md R8) and `WF_CFG`
(00_scope.md R10). -/

namespace Sys2Proof.Machine

/-- A call `E(key, block)` of a cipher (00_scope.md R7). -/
abbrev Cipher := Bytes → Bytes → Bytes

/-- A call `H(message)` of a digest (00_scope.md R7). -/
abbrev Digest := Bytes → Bytes

/-- A byte string together with the requests made on a primitive port to compute it. -/
structure Traced where
  bytes : Bytes
  reqs : List PrimReq
deriving DecidableEq, Repr

/-- No bytes yet and no request yet. -/
def Traced.empty : Traced := ⟨[], []⟩

/-- `E` of the engine: its answers have the length of the cipher's block (00_scope.md R7, R224). -/
def State.cipher (s : State) : Cipher := fun key block =>
  (List.range s.params.cipher.blockBytes).map (s.params.cipher.byteOf key block)

/-- `H` of the engine: its answers have the length of the digest's output (00_scope.md R7, R224). -/
def State.digest (s : State) : Digest := fun message =>
  (List.range s.params.digest.digestBytes).map (s.params.digest.byteOf message)

/-- `KEYLEN_BITS` (10_state.md R22). -/
def State.keylen (s : State) : Nat := s.cfg.keylenBits.toNat

/-- `KL = CFG_KEYLEN_BITS / 8` (10_state.md R22). -/
def State.keyBytes (s : State) : Nat := s.keylen / 8

/-- `OUTLEN` (10_state.md R23). -/
def State.outlen (s : State) : Nat := s.cfg.outlenBytes.toNat

/-- `SEEDLEN_BITS` (10_state.md R24). -/
def State.seedlen (s : State) : Nat := s.cfg.seedlenBits.toNat

/-- `STRENGTH_BITS` (10_state.md R25). -/
def State.strength (s : State) : Nat := s.cfg.strengthBits.toNat

/-- `K0`, the leftmost `KL` bytes of `K_FIXED` (42_ctr_df.md R143); the only read of the ROM
(20_memory.md R51). -/
def State.chainingKey (s : State) : Bytes := s.kFixed.toList.take s.keyBytes

/-- `keyOK` (00_scope.md R8). -/
def State.keyOK (s : State) : Bool :=
  decide (s.keylen ∈ s.params.cipherKeySizes ∧ s.keylen % 8 = 0 ∧ 8 ≤ s.keylen ∧ s.keylen ≤ 256)

/-- `WF_CFG` (00_scope.md R10) of parameters and configuration registers. (a) and (e) are in the
types of the registers; (b), (c) and (d) depend on the variant; (f) is the bound of R9. -/
def wfCfg (p : Config.Params) (c : Cfg) : Bool :=
  (match c.prim with
   | .cipher => decide (c.outlenBytes.toNat = p.cipher.blockBytes ∧ 4 ≤ c.outlenBytes.toNat)
   | .digest => decide (c.outlenBytes.toNat = p.digest.digestBytes ∧ 1 ≤ c.outlenBytes.toNat))
  && decide (p.maxOperandBytes ≤ 4294967295)

/-- `WF_CFG` of the engine's own configuration (00_scope.md R10). -/
def State.wfConfig (s : State) : Bool := wfCfg s.params s.cfg

/-- The capacity of `RSP_DATA` (10_state.md R31). -/
def State.rspCapacity (s : State) : Nat :=
  max 4 (max s.outlen (max (s.params.maxDfBits / 8)
    (max (s.params.maxHashgenBits / 8) s.params.maxOperandBytes)))

end Sys2Proof.Machine
end

