-- ==== Sys2Proof/Machine/Ops.lean ====
section
/-! DEFINITION. The operations that write State: completing a command with a result or with an error
(60_exceptions.md R211, R214), the host taking the response (R215), accepting a command
(70_reset_and_hazards.md R244), and reset (R240, R241, R250). -/

namespace Sys2Proof.Machine

/-- Completion with status `OK` (60_exceptions.md R214): the response registers hold the result, and
`PHASE` goes to DONE. `primReqs` records the requests that were made. The length is below `2^32` for
every command that decodes (log entry 20). -/
def State.respond (s : State) (r : Traced) : State :=
  { s with
    phase := .done
    rspStatus := okCode
    rspLen := BitVec.ofNat 32 r.bytes.length
    rspData := r.bytes
    primReqs := r.reqs }

/-- Completion with an error, the engine's way of taking an exception (60_exceptions.md R211, R214):
the status is the error's, there is no output, no primitive was called, and nothing else changes. -/
def State.raise (s : State) (e : ErrorCode) : State :=
  { s with
    phase := .done
    rspStatus := e.code
    rspLen := 0
    rspData := []
    primReqs := [] }

/-- Completion of a command whose checks and algorithm gave `r` (00_scope.md R14). -/
def State.complete (s : State) (r : Except ErrorCode Traced) : State :=
  match r with
  | .ok t => s.respond t
  | .error e => s.raise e

/-- The return (60_exceptions.md R215): the host takes the response, `PHASE` goes to IDLE, and the
response registers keep their values. -/
def State.takeResponse (s : State) : State := { s with phase := .idle }

/-- Acceptance of a command (70_reset_and_hazards.md R244): `PHASE` goes to BUSY with the command as
it stands on the ports. -/
def State.accept (s : State) : State := { s with phase := .busy s.pins.cmd }

/-- The ports move on to the host's next levels; a host that drives nothing new holds its levels
(log entry 4). -/
def State.tick (s : State) : State :=
  { s with pins := s.future.headD s.pins, future := s.future.tail }

/-- The value of `CFG_PRIM` for a level of `cfg_prim` (10_state.md R21). -/
def Prim.ofBit (b : BitVec 1) : Prim := if b = 0 then .cipher else .digest

/-- The configuration registers sampled from the input ports (70_reset_and_hazards.md R241). -/
def Cfg.sample (p : Pins) : Cfg where
  prim := Prim.ofBit p.cfgPrim
  keylenBits := p.cfgKeylenBits
  outlenBytes := p.cfgOutlenBytes
  seedlenBits := p.cfgSeedlenBits
  strengthBits := p.cfgStrengthBits

/-- The engine while `rst` is 1 (70_reset_and_hazards.md R240, R250): a command in progress is
abandoned, the response registers take their reset values, and no primitive request is issued. The
configuration registers wait for the fall of `rst` (R241; log entry 6). -/
def State.enterReset (s : State) : State :=
  { s with
    phase := .idle
    rspStatus := 0x00
    rspLen := 0
    rspData := []
    primReqs := []
    inReset := true }

/-- The engine at the fall of `rst`: every piece of state holds its reset value, the configuration
registers those of the input ports (70_reset_and_hazards.md R240, R241). The levels sampled are those
of the first step in which `rst` is 0, which is the model's choice where they change across the edge
(DESIGN CHOICE, log entry 22). -/
def State.leaveReset (s : State) : State :=
  { s with
    cfg := Cfg.sample s.pins
    phase := .idle
    rspStatus := 0x00
    rspLen := 0
    rspData := []
    primReqs := []
    inReset := false }

end Sys2Proof.Machine
end

