-- ==== Sys2Proof/Machine/Chaining.lean ====
section
/-! DEFINITION. The ChainingCompressor family: `bcc` and the command BCC (41_bcc.md R120, R121). -/

namespace Sys2Proof.Machine

/-- The loop of R120 over the blocks that are left, from the chaining value `chain`:
`chain <- E(K, xor(chain, B))` for each block `B` in order. -/
def chainBlocks (E : Cipher) (key : Bytes) : List Bytes → Bytes → Traced
  | [], chain => ⟨chain, []⟩
  | B :: rest, chain =>
    let x := xorBytes chain B
    let r := chainBlocks E key rest (E key x)
    ⟨r.bytes, .cipher key x :: r.reqs⟩

/-- `bcc(K, D)` (R120): the chaining value starts at zero. -/
def bcc (E : Cipher) (outlen : Nat) (key data : Bytes) : Traced :=
  chainBlocks E key (blocks data outlen) (zeros outlen)

/-- The checks of BCC and its result, in the order of R121. -/
def State.bccAnswer (s : State) (data key : Bytes) : Except ErrorCode Traced :=
  if s.cfg.prim ≠ .cipher then .error .unsupportedOperation
  else if s.keyOK = false then .error .unsupportedKeySize
  else if key.length ≠ s.keyBytes then .error .invalidInputLength
  else if data.length = 0 ∨ data.length % s.outlen ≠ 0 then .error .invalidInputLength
  else .ok (bcc s.cipher s.outlen key data)

/-- BCC (R121): data in `OPA`, key in `OPB`. -/
def execBcc (data key : Bytes) (s : State) : Host.Outcome State Fault Refusal :=
  .next (s.complete (s.bccAnswer data key))

end Sys2Proof.Machine
end

