-- ==== Sys2Proof/Machine/Counter.lean ====
section
/-! DEFINITION. The BigEndianCounter family: `encodeUint32`, `incrementModPow2` and the commands
ENC_U32 and INC (40_counter.md R100 to R103). -/

namespace Sys2Proof.Machine

/-- `encodeUint32(v)`: 4 bytes, most significant first (R100). -/
def encodeUint32 (v : Nat) : Bytes := bytesBE v 4

/-- `incrementModPow2(b)`: one more, modulo `2^(8n)`, in the same `n` bytes (R101). -/
def incrementModPow2 (b : Bytes) : Bytes :=
  if b.length = 0 then []
  else bytesBE ((intBE b + 1) % 2 ^ (8 * b.length)) b.length

/-- ENC_U32 (R102). -/
def execEncU32 (value : BitVec 32) (s : State) : Host.Outcome State Fault Refusal :=
  .next (s.complete (.ok ⟨encodeUint32 value.toNat, []⟩))

/-- INC (R103): the operand itself is not changed; the new value is the result. -/
def execInc (buffer : Bytes) (s : State) : Host.Outcome State Fault Refusal :=
  .next (s.complete (.ok ⟨incrementModPow2 buffer, []⟩))

end Sys2Proof.Machine
end

