-- ==== Sys2Proof/Machine/CtrDf.lean ====
section
/-! DEFINITION. The counter derivation function and the command CTR_DF (42_ctr_df.md R140 to R149). -/

namespace Sys2Proof.Machine

/-- `ctr_df_check(nbits)` (R140): alignment and zero before the maximum. -/
def ctrDfCheck (maxBits nbits : Nat) : Except ErrorCode Unit :=
  if nbits = 0 ∨ nbits % 8 ≠ 0 then .error .invalidLength
  else if maxBits < nbits then .error .lengthExceeded
  else .ok ()

/-- `L ++ N ++ seed ++ [0x80]` (R141, R142). -/
def lengthPrefixed (seed : Bytes) (nb : Nat) : Bytes :=
  encodeUint32 seed.length ++ encodeUint32 nb ++ seed ++ [0x80]

/-- `S` (R142): the length-prefixed seed with the fewest zero bytes that make its length a multiple
of `OUTLEN`. -/
def paddedString (outlen : Nat) (seed : Bytes) (nb : Nat) : Bytes :=
  let t := lengthPrefixed seed nb
  t ++ zeros ((outlen - t.length % outlen) % outlen)

/-- `IV_i` (R144): `encodeUint32(i)` followed by zero bytes, `OUTLEN` bytes in all. -/
def ivBlock (outlen i : Nat) : Bytes := encodeUint32 i ++ zeros (outlen - 4)

/-- The loop of the chaining stage (R144): while `len(temp) < need`, append
`bcc(K0, IV_i ++ S)` to `temp`. The first argument bounds the number of rounds (log entry 18). -/
def chainStage (E : Cipher) (outlen need : Nat) (k0 str : Bytes) : Nat → Nat → Traced → Traced
  | 0, _, temp => temp
  | fuel + 1, i, temp =>
    if temp.bytes.length < need then
      let t := bcc E outlen k0 (ivBlock outlen i ++ str)
      chainStage E outlen need k0 str fuel (i + 1) ⟨temp.bytes ++ t.bytes, temp.reqs ++ t.reqs⟩
    else temp

/-- The loop of the expansion stage (R146): while `len(out) < nb`, `X <- E(K1, X)` is appended to
`out`. The first argument bounds the number of rounds (log entry 18). -/
def expandStage (E : Cipher) (k1 : Bytes) (nb : Nat) : Nat → Bytes → Traced → Traced
  | 0, _, out => out
  | fuel + 1, x, out =>
    if out.bytes.length < nb then
      let x' := E k1 x
      expandStage E k1 nb fuel x' ⟨out.bytes ++ x', out.reqs ++ [.cipher k1 x]⟩
    else out

/-- Steps 1 to 7 of `ctr_df(seed, nbits)` (R141 to R148), for a chaining key `k0` of `kl` bytes. Each
round of either loop appends a block of at least one byte, so `kl + outlen` rounds and `nb` rounds
are enough. -/
def ctrDf (E : Cipher) (outlen kl : Nat) (k0 seed : Bytes) (nbits : Nat) : Traced :=
  let nb := nbits / 8
  let str := paddedString outlen seed nb
  let temp := chainStage E outlen (kl + outlen) k0 str (kl + outlen) 0 Traced.empty
  let k1 := temp.bytes.take kl
  let x := (temp.bytes.drop kl).take outlen
  let out := expandStage E k1 nb nb x Traced.empty
  ⟨out.bytes.take nb, temp.reqs ++ out.reqs⟩

/-- `ctr_df(seed, nbits)` with its check first (R148). -/
def State.ctrDfAnswer (s : State) (seed : Bytes) (nbits : Nat) : Except ErrorCode Traced :=
  match ctrDfCheck s.params.maxDfBits nbits with
  | .error e => .error e
  | .ok () => .ok (ctrDf s.cipher s.outlen s.keyBytes s.chainingKey seed nbits)

/-- The checks of the configuration, then `ctr_df` (R149). -/
def State.ctrDfCommand (s : State) (seed : Bytes) (nbits : Nat) : Except ErrorCode Traced :=
  if s.cfg.prim ≠ .cipher then .error .unsupportedOperation
  else if s.keyOK = false then .error .unsupportedKeySize
  else s.ctrDfAnswer seed nbits

/-- CTR_DF (R149). -/
def execCtrDf (nbits : BitVec 32) (seed : Bytes) (s : State) : Host.Outcome State Fault Refusal :=
  .next (s.complete (s.ctrDfCommand seed nbits.toNat))

end Sys2Proof.Machine
end

