-- ==== Sys2Proof/Machine/HashGen.lean ====
section
/-! DEFINITION. The hash expansion and the command HASHGEN (43_hashgen.md R170 to R176). -/

namespace Sys2Proof.Machine

/-- `hashgen_check(nbits)` (R170): alignment before the maximum; 0 bits pass. -/
def hashgenCheck (maxBits nbits : Nat) : Except ErrorCode Unit :=
  if nbits % 8 ≠ 0 then .error .invalidLength
  else if maxBits < nbits then .error .lengthExceeded
  else .ok ()

/-- The loop of R172, exactly as many rounds as its first argument says (R174): `w <- H(data)`,
`out <- out ++ w`, `data <- incrementModPow2(data)`. -/
def digestLoop (H : Digest) : Nat → Bytes → Traced → Traced
  | 0, _, out => out
  | m + 1, data, out =>
    digestLoop H m (incrementModPow2 data) ⟨out.bytes ++ H data, out.reqs ++ [.digest data]⟩

/-- `hashgen(V, nbits)` after its check (R171 to R173, R176): `m = ceil(nb / OUTLEN)` rounds, then
the truncation. The digests fill the `nb` bytes unless `OUTLEN` is 0, which only an ill-formed
configuration has; there `take` gives what there is (DESIGN CHOICE, log entry 16). -/
def hashgen (H : Digest) (outlen : Nat) (v : Bytes) (nbits : Nat) : Traced :=
  let nb := nbits / 8
  let out := digestLoop H (ceilDiv nb outlen) v Traced.empty
  ⟨out.bytes.take nb, out.reqs⟩

/-- `hashgen(V, nbits)` with its check first (R176). -/
def State.hashgenAnswer (s : State) (v : Bytes) (nbits : Nat) : Except ErrorCode Traced :=
  match hashgenCheck s.params.maxHashgenBits nbits with
  | .error e => .error e
  | .ok () => .ok (hashgen s.digest s.outlen v nbits)

/-- The check of the variant, then `hashgen` (R176). -/
def State.hashgenCommand (s : State) (v : Bytes) (nbits : Nat) : Except ErrorCode Traced :=
  if s.cfg.prim ≠ .digest then .error .unsupportedOperation
  else s.hashgenAnswer v nbits

/-- HASHGEN (R176). -/
def execHashgen (nbits : BitVec 32) (stateValue : Bytes) (s : State) :
    Host.Outcome State Fault Refusal :=
  .next (s.complete (s.hashgenCommand stateValue nbits.toNat))

end Sys2Proof.Machine
end

