-- ==== Sys2Proof/Machine/Contract.lean ====
section
/-! DEFINITION. The DerivationFunction contract, the multiplexer by `CFG_PRIM`: DF_SEEDLEN,
DF_STRENGTH, DF_DERIVE and DF_GENERATE (44_df_contract.md R190 to R194). -/

namespace Sys2Proof.Machine

/-- DF_SEEDLEN (R191), on both variants. -/
def execDfSeedlen (s : State) : Host.Outcome State Fault Refusal :=
  .next (s.complete (.ok ⟨encodeUint32 s.seedlen, []⟩))

/-- DF_STRENGTH (R192), on both variants. -/
def execDfStrength (s : State) : Host.Outcome State Fault Refusal :=
  .next (s.complete (.ok ⟨encodeUint32 s.strength, []⟩))

/-- `deriveBytes` by variant (R190, R193): `ctr_df(OPA, CFG_SEEDLEN_BITS)` on a cipher; on a digest
there is no derivation function. -/
def State.deriveAnswer (s : State) (seed : Bytes) : Except ErrorCode Traced :=
  match s.cfg.prim with
  | .digest => .error .unsupportedOperation
  | .cipher =>
    if s.keyOK = false then .error .unsupportedKeySize
    else s.ctrDfAnswer seed s.seedlen

/-- `generateBytes` by variant (R190, R194): `hashgen(OPA, NBITS)` on a digest; on a cipher there is
no generate step. -/
def State.generateAnswer (s : State) (v : Bytes) (nbits : Nat) : Except ErrorCode Traced :=
  match s.cfg.prim with
  | .cipher => .error .unsupportedOperation
  | .digest => s.hashgenAnswer v nbits

/-- DF_DERIVE (R193): the output length is `CFG_SEEDLEN_BITS`, not an operand. -/
def execDfDerive (seed : Bytes) (s : State) : Host.Outcome State Fault Refusal :=
  .next (s.complete (s.deriveAnswer seed))

/-- DF_GENERATE (R194). -/
def execDfGenerate (nbits : BitVec 32) (stateValue : Bytes) (s : State) :
    Host.Outcome State Fault Refusal :=
  .next (s.complete (s.generateAnswer stateValue nbits.toNat))

end Sys2Proof.Machine
end

