-- ==== Sys2Proof/Machine/Dispatch.lean ====
section
/-! DEFINITION. The meaning of each instruction, one arm per constructor of Instr (30_encoding.md R73). -/

namespace Sys2Proof.Machine

def exec (i : Instr) (s : State) : Host.Outcome State Fault Refusal :=
  match i with
  -- BigEndianCounter (40_counter.md)
  | .encU32 value => Sys2Proof.Machine.execEncU32 value s
  | .inc buffer => Sys2Proof.Machine.execInc buffer s
  -- ChainingCompressor (41_bcc.md)
  | .bcc data key => Sys2Proof.Machine.execBcc data key s
  -- CounterDerivationFunction (42_ctr_df.md)
  | .ctrDf nbits seed => Sys2Proof.Machine.execCtrDf nbits seed s
  -- HashExpansion (43_hashgen.md)
  | .hashgen nbits stateValue => Sys2Proof.Machine.execHashgen nbits stateValue s
  -- DerivationFunction contract (44_df_contract.md)
  | .dfSeedlen => Sys2Proof.Machine.execDfSeedlen s
  | .dfStrength => Sys2Proof.Machine.execDfStrength s
  | .dfDerive seed => Sys2Proof.Machine.execDfDerive seed s
  | .dfGenerate nbits stateValue => Sys2Proof.Machine.execDfGenerate nbits stateValue s

end Sys2Proof.Machine
end

