-- ==== Sys2Proof/WellFormed.lean ====
section
/-! DEFINITION. Which instructions a command can stand for: the operands of an instruction are at
most `MAX_OPERAND_BYTES` long (30_encoding.md R70, R77). The 32 bits of the scalar and the emptiness
of unused operands are in the types of `Instr`. -/

namespace Sys2Proof

/-- `OPA` is within the operand limit (R77). -/
def Instr.opaFits (maxBytes : Nat) (i : Instr) : Bool := decide (i.opa.length ≤ maxBytes)

/-- `OPB` is within the operand limit (R77). -/
def Instr.opbFits (maxBytes : Nat) (i : Instr) : Bool := decide (i.opb.length ≤ maxBytes)

/-- The instruction is well formed for an engine whose operand limit is `maxBytes` (R70). -/
def Instr.wellFormed (maxBytes : Nat) (i : Instr) : Bool :=
  i.opaFits maxBytes && i.opbFits maxBytes

end Sys2Proof
end

