-- ==== Sys2Proof/Decode.lean ====
section
/-! DEFINITION. Decoding of commands (30_encoding.md R71 to R81), total on every word and every pair
of byte strings, rejecting by name; and the encoder, from the same tables. -/

namespace Sys2Proof

open Machine

/-- The opcode byte of an opcode (R73). -/
def Opcode.code : Opcode → BitVec 8
  | .encU32 => 0x01
  | .inc => 0x02
  | .bcc => 0x03
  | .ctrDf => 0x04
  | .hashgen => 0x05
  | .dfSeedlen => 0x06
  | .dfStrength => 0x07
  | .dfDerive => 0x08
  | .dfGenerate => 0x09

/-- The opcode map read the other way; every value not in the table is reserved (R73). -/
def Opcode.ofByte (b : BitVec 8) : Option Opcode :=
  match b.toNat with
  | 0x01 => some .encU32
  | 0x02 => some .inc
  | 0x03 => some .bcc
  | 0x04 => some .ctrDf
  | 0x05 => some .hashgen
  | 0x06 => some .dfSeedlen
  | 0x07 => some .dfStrength
  | 0x08 => some .dfDerive
  | 0x09 => some .dfGenerate
  | _ => none

/-- `usesScalar` of R76, the `SCALAR` column of R74. -/
def Opcode.usesScalar : Opcode → Bool
  | .encU32 => true
  | .inc => false
  | .bcc => false
  | .ctrDf => true
  | .hashgen => true
  | .dfSeedlen => false
  | .dfStrength => false
  | .dfDerive => false
  | .dfGenerate => true

/-- `usesA` of R76, the `OPA` column of R74. -/
def Opcode.usesA : Opcode → Bool
  | .encU32 => false
  | .inc => true
  | .bcc => true
  | .ctrDf => true
  | .hashgen => true
  | .dfSeedlen => false
  | .dfStrength => false
  | .dfDerive => true
  | .dfGenerate => true

/-- `usesB` of R76, the `OPB` column of R74. -/
def Opcode.usesB : Opcode → Bool
  | .encU32 => false
  | .inc => false
  | .bcc => true
  | .ctrDf => false
  | .hashgen => false
  | .dfSeedlen => false
  | .dfStrength => false
  | .dfDerive => false
  | .dfGenerate => false

/-- `OPC = CMD_WORD[7:0]` (R71). -/
def opcField (w : BitVec 64) : BitVec 8 := w.extractLsb' 0 8

/-- `RSV = CMD_WORD[31:8]` (R71). -/
def rsvField (w : BitVec 64) : BitVec 24 := w.extractLsb' 8 24

/-- `SCALAR = CMD_WORD[63:32]` (R71, R72). -/
def scalarField (w : BitVec 64) : BitVec 32 := w.extractLsb' 32 32

/-- The command word with the given fields (R71): `SCALAR`, `RSV` and `OPC`, most significant first. -/
def packWord (scalar : BitVec 32) (rsv : BitVec 24) (opc : BitVec 8) : BitVec 64 :=
  scalar.setWidth 64 <<< 32 ||| rsv.setWidth 64 <<< 8 ||| opc.setWidth 64

/-- Why a command does not decode (R75 to R77). -/
inductive Reject where
  /-- `OPC` is none of the nine opcodes (R75). -/
  | reservedOpcode
  /-- `RSV` is not zero (R75). -/
  | reservedBits
  /-- The opcode does not use `SCALAR` and it is not zero (R76). -/
  | unusedScalar
  /-- The opcode does not use `OPA` and it is not empty (R76). -/
  | unusedOperandA
  /-- The opcode does not use `OPB` and it is not empty (R76). -/
  | unusedOperandB
  /-- `OPA` is longer than `MAX_OPERAND_BYTES` (R77). -/
  | operandATooLong
  /-- `OPB` is longer than `MAX_OPERAND_BYTES` (R77). -/
  | operandBTooLong
deriving DecidableEq, Repr

/-- The status a rejected command completes with (R75 to R77). -/
def Reject.errorCode : Reject → ErrorCode
  | .reservedOpcode => .illegalCommand
  | .reservedBits => .illegalCommand
  | .unusedScalar => .illegalCommand
  | .unusedOperandA => .illegalCommand
  | .unusedOperandB => .illegalCommand
  | .operandATooLong => .lengthExceeded
  | .operandBTooLong => .lengthExceeded

/-- The instruction of an opcode with its operands (R72, R74). -/
def Opcode.assemble (op : Opcode) (scalar : BitVec 32) (opa opb : Bytes) : Instr :=
  match op with
  | .encU32 => .encU32 scalar
  | .inc => .inc opa
  | .bcc => .bcc opa opb
  | .ctrDf => .ctrDf scalar opa
  | .hashgen => .hashgen scalar opa
  | .dfSeedlen => .dfSeedlen
  | .dfStrength => .dfStrength
  | .dfDerive => .dfDerive opa
  | .dfGenerate => .dfGenerate scalar opa

/-- The second check: no unused field is in use (R76). -/
def operandCheck (op : Opcode) (c : Command) : Except Reject Unit :=
  if op.usesScalar = false ∧ scalarField c.word ≠ 0 then .error .unusedScalar
  else if op.usesA = false ∧ c.opa.length ≠ 0 then .error .unusedOperandA
  else if op.usesB = false ∧ c.opb.length ≠ 0 then .error .unusedOperandB
  else .ok ()

/-- The third check: no operand is over the limit (R77). -/
def lengthCheck (maxBytes : Nat) (c : Command) : Except Reject Unit :=
  if maxBytes < c.opa.length then .error .operandATooLong
  else if maxBytes < c.opb.length then .error .operandBTooLong
  else .ok ()

/-- Decoding (R79): the checks of R75, R76 and R77 in that order, then the instruction. -/
def decodeCommand (maxBytes : Nat) (c : Command) : Except Reject Instr :=
  match Opcode.ofByte (opcField c.word) with
  | none => .error .reservedOpcode
  | some op =>
    if rsvField c.word ≠ 0 then .error .reservedBits
    else
      match operandCheck op c with
      | .error r => .error r
      | .ok () =>
        match lengthCheck maxBytes c with
        | .error r => .error r
        | .ok () => .ok (op.assemble (scalarField c.word) c.opa c.opb)

/-- The command of an instruction: `RSV` is 0, an unused scalar is 0 and an unused operand is empty
(R71, R73, R74). -/
def encode (i : Instr) : Command where
  word := packWord i.scalar 0 i.opcode.code
  opa := i.opa
  opb := i.opb

/-- The command word carried as bytes: big-endian, byte 0 holds `CMD_WORD[63:56]` (R81). -/
def wordToBytes (w : BitVec 64) : Bytes := bytesBE w.toNat 8

/-- The command word carried by 8 bytes, big-endian (R81); no other length is a command word (R80). -/
def wordOfBytes (bs : Bytes) : Option (BitVec 64) :=
  if bs.length = 8 then some (BitVec.ofNat 64 (intBE bs)) else none

/-- The command word of an opcode-table row's bits: bit 0 of `w` is bit 0 of the word, and bits from
`nbits` on are 0 (log entry 17). -/
def tableWord (nbits w : Nat) : BitVec 64 := BitVec.ofNat 64 (w % 2 ^ nbits)

/-- The command an opcode-table row's bits stand for: operands are no bits of the word and are empty
(R70, log entry 17). -/
def tableCommand (nbits w : Nat) : Command where
  word := tableWord nbits w
  opa := []
  opb := []

/-- The instruction the decoder reads from an opcode-table row's bits, laid out as bytes in the order
of R81. -/
def decodeTableWord (nbits w : Nat) : Option Instr :=
  match wordOfBytes (wordToBytes (tableWord nbits w)) with
  | none => none
  | some word =>
    match decodeCommand Config.resetParams.maxOperandBytes ⟨word, [], []⟩ with
    | .ok i => some i
    | .error _ => none

end Sys2Proof
end

