-- ==== Sys2Proof/Machine/Ports.lean ====
section
/-! DEFINITION. The output ports of 30_encoding.md R84 as functions of the state, and the transfers
of the two channels. The requests on the primitive ports are the field `primReqs`. -/

namespace Sys2Proof.Machine

/-- Reset is asserted: `rst` is 1, it is active high (30_encoding.md R84, 70_reset_and_hazards.md
R240). -/
def State.resetAsserted (s : State) : Bool := s.pins.rst

/-- `cmd_ready`: 1 exactly when `PHASE = IDLE` and reset is not asserted (30_encoding.md R84). -/
def State.cmdReady (s : State) : Bool := decide (s.phase = .idle) && !s.resetAsserted

/-- `rsp_valid`: 1 exactly when `PHASE = DONE` (30_encoding.md R84), and 0 while reset is asserted
(70_reset_and_hazards.md R240; log entry 7). -/
def State.rspValid (s : State) : Bool := decide (s.phase = .done) && !s.resetAsserted

/-- The command channel transfers: `cmd_valid = 1` and `cmd_ready = 1` (30_encoding.md R84). -/
def State.cmdTransfer (s : State) : Bool := s.pins.cmdValid && s.cmdReady

/-- The response channel transfers: `rsp_valid = 1` and `rsp_ready = 1` (30_encoding.md R84). -/
def State.rspTransfer (s : State) : Bool := s.rspValid && s.pins.rspReady

/-- The cipher port is present: `CFG_PRIM = CIPHER` (30_encoding.md R84). -/
def State.cipherPortPresent (s : State) : Bool := decide (s.cfg.prim = .cipher)

/-- The digest port is present: `CFG_PRIM = DIGEST` (30_encoding.md R84). -/
def State.digestPortPresent (s : State) : Bool := decide (s.cfg.prim = .digest)

/-- The request is on the cipher port. -/
def PrimReq.onCipherPort : PrimReq → Bool
  | .cipher _ _ => true
  | .digest _ => false

/-- The step from IDLE (70_reset_and_hazards.md R244): a presented command is accepted; otherwise
the engine holds its state (60_exceptions.md R223). The fall of `rst` ends with it as well. -/
def State.idleStep (s : State) : State :=
  if s.cmdTransfer then s.accept.tick else s.tick

/-- The step from DONE (70_reset_and_hazards.md R245): the response leaves when the host takes it;
until then a presented command waits. -/
def State.doneStep (s : State) : State :=
  if s.rspTransfer then s.takeResponse.tick else s.tick

end Sys2Proof.Machine
end

