-- ==== Sys2Proof/Machine/Fetch.lean ====
section
/-! DEFINITION. What a step does before and around an instruction: reset, the hand-overs, the guard
of the configuration, and the decoding of the accepted command. The engine fetches nothing
(10_state.md R34): its next instruction is the command accepted last, which `PHASE` carries. -/

namespace Sys2Proof.Machine

/-- What a step does: it is settled without an instruction, or it runs one. -/
inductive Action where
  /-- The step's outcome, no instruction involved. -/
  | settled (o : Host.Outcome State Fault Refusal)
  /-- The step runs `i` on the state `s`. -/
  | run (i : Instr) (s : State)

/-- The fall of `rst` (70_reset_and_hazards.md R240, R241): the configuration is sampled, from the
ports as they stand in this step (log entry 22), and `PHASE` is IDLE with `rst` at 0, so `cmd_ready` is
1 and a presented command is accepted in the same step (30_encoding.md R84; log entry 7). An engine
whose configuration is not well formed is refused there (60_exceptions.md R226; log entry 8). -/
def State.fallOfReset (s : State) : Host.Outcome State Fault Refusal :=
  if s.leaveReset.wfConfig then .next s.leaveReset.idleStep else .refused .illFormedConfig

/-- The instruction the accepted command decodes to, on the state whose ports have moved on; a command
that does not decode completes with its status (30_encoding.md R75 to R79). -/
def State.runAccepted (s : State) (c : Command) : Action :=
  match decodeCommand s.params.maxOperandBytes c with
  | .ok i => .run i s.tick
  | .error r => .settled (.next (s.tick.raise r.errorCode))

/-- What the next step does. Reset comes first (R240, R250), then the guard of R226, then the phase
(10_state.md R28). -/
def State.action (s : State) : Action :=
  if s.pins.rst then .settled (.next s.enterReset.tick)
  else if s.inReset then .settled s.fallOfReset
  else if s.wfConfig then
    match s.phase with
    | .idle => .settled (.next s.idleStep)
    | .busy c => s.runAccepted c
    | .done => .settled (.next s.doneStep)
  else .settled (.refused .illFormedConfig)

/-- The command has just been accepted: the very next step decodes and runs it (log entry 15). `rst`
must be 0 for that. -/
def State.placeCommand (s : State) (c : Command) : State :=
  { s with
    phase := .busy c
    inReset := false
    pins := { s.pins with rst := false } }

end Sys2Proof.Machine
end

