-- ==== Sys2Proof/Machine/Step.lean ====
section
/-! DEFINITION. One step of the engine. A command takes one step from BUSY to DONE
(70_reset_and_hazards.md R248; log entry 5). -/

namespace Sys2Proof.Machine

/-- One step: what the state's action says, through `exec` where it runs an instruction. -/
def step (s : State) : Host.Outcome State Fault Refusal :=
  match s.action with
  | .settled o => o
  | .run i s' => exec i s'

/-- `s` with the command of an opcode-table row's bits accepted, so that the next step runs it (log
entries 15 and 17). -/
def State.withFetchWord (s : State) (nbits w : Nat) : State :=
  s.placeCommand (tableCommand nbits w)

end Sys2Proof.Machine
end

