-- ==== Sys2Proof/Machine/Assembler.lean ====
section
/-! DEFINITION. The command syntax of 30_encoding.md R82: one line of text, as the host writes it, to
one command. It is the host's, not the engine's: no step uses it. Each mnemonic assembles to exactly
one command (R83). The details of the text that R82 leaves open are DESIGN CHOICE (log entry 19). -/

namespace Sys2Proof.Machine

/-- The mnemonic of an opcode (R73). -/
def mnemonic : Opcode → List Char
  | .encU32 => ['E', 'N', 'C', '_', 'U', '3', '2']
  | .inc => ['I', 'N', 'C']
  | .bcc => ['B', 'C', 'C']
  | .ctrDf => ['C', 'T', 'R', '_', 'D', 'F']
  | .hashgen => ['H', 'A', 'S', 'H', 'G', 'E', 'N']
  | .dfSeedlen => ['D', 'F', '_', 'S', 'E', 'E', 'D', 'L', 'E', 'N']
  | .dfStrength => ['D', 'F', '_', 'S', 'T', 'R', 'E', 'N', 'G', 'T', 'H']
  | .dfDerive => ['D', 'F', '_', 'D', 'E', 'R', 'I', 'V', 'E']
  | .dfGenerate => ['D', 'F', '_', 'G', 'E', 'N', 'E', 'R', 'A', 'T', 'E']

/-- The opcode of a mnemonic. -/
def opcodeOfMnemonic (m : List Char) : Option Opcode :=
  [.encU32, .inc, .bcc, .ctrDf, .hashgen, .dfSeedlen, .dfStrength, .dfDerive, .dfGenerate].find?
    fun op => mnemonic op == m

/-- The byte strings the host holds under names (R82). -/
abbrev HostVars := List (List Char × Bytes)

/-- The value of a digit in base 10 or 16. -/
def digitValue (base : Nat) (c : Char) : Option Nat :=
  let n := c.toNat
  let v :=
    if 48 ≤ n ∧ n ≤ 57 then n - 48
    else if 65 ≤ n ∧ n ≤ 70 then n - 55
    else if 97 ≤ n ∧ n ≤ 102 then n - 87
    else base
  if v < base then some v else none

/-- A natural written in the digits of a base, from the value of the digits before. -/
def readDigits (base : Nat) : Nat → List Char → Option Nat
  | acc, [] => some acc
  | acc, c :: cs =>
    match digitValue base c with
    | none => none
    | some d => readDigits base (acc * base + d) cs

/-- `<value>` or `<nbits>`: a natural below `2^32`, decimal or hexadecimal after 0x (R82). -/
def readScalar (cs : List Char) : Option (BitVec 32) :=
  let v :=
    match cs with
    | '0' :: 'x' :: d :: ds => readDigits 16 0 (d :: ds)
    | d :: ds => readDigits 10 0 (d :: ds)
    | [] => none
  match v with
  | none => none
  | some n => if n < 2 ^ 32 then some (BitVec.ofNat 32 n) else none

/-- An even number of hexadecimal digits, byte 0 first (R82). -/
def readHexBytes : List Char → Option Bytes
  | [] => some []
  | [_] => none
  | h :: l :: rest =>
    match digitValue 16 h, digitValue 16 l, readHexBytes rest with
    | some a, some b, some bs => some (BitVec.ofNat 8 (16 * a + b) :: bs)
    | _, _, _ => none

/-- `<bytes>`: hexadecimal digits, two double quotes for the empty string, or `$name` (R82). -/
def readBytes (vars : HostVars) : List Char → Option Bytes
  | '"' :: rest => if rest = ['"'] then some [] else none
  | '$' :: name => vars.lookup name
  | cs => readHexBytes cs

/-- The operand fields of a line read so far, each absent or given once. -/
structure AsmFields where
  scalar : Option (BitVec 32) := none
  opa : Option Bytes := none
  opb : Option Bytes := none
deriving DecidableEq, Repr

/-- One operand field of a line: `A=<bytes>`, `B=<bytes>` or the scalar (R82). -/
def readField (vars : HostVars) (f : AsmFields) (field : List Char) : Option AsmFields :=
  match field with
  | 'A' :: '=' :: cs =>
    match f.opa, readBytes vars cs with
    | none, some b => some { f with opa := some b }
    | _, _ => none
  | 'B' :: '=' :: cs =>
    match f.opb, readBytes vars cs with
    | none, some b => some { f with opb := some b }
    | _, _ => none
  | cs =>
    match f.scalar, readScalar cs with
    | none, some v => some { f with scalar := some v }
    | _, _ => none

/-- The operand fields of a line, in any order. -/
def readFields (vars : HostVars) : AsmFields → List (List Char) → Option AsmFields
  | f, [] => some f
  | f, x :: xs =>
    match readField vars f x with
    | none => none
    | some g => readFields vars g xs

/-- A blank of a line. -/
def isBlank (c : Char) : Bool := c == ' '

/-- The text without the blanks at its ends. -/
def trimBlanks (cs : List Char) : List Char :=
  ((cs.dropWhile isBlank).reverse.dropWhile isBlank).reverse

/-- The pieces of a text between commas. -/
def splitCommas : List Char → List (List Char)
  | [] => [[]]
  | c :: cs =>
    match splitCommas cs with
    | [] => [[c]]
    | w :: ws => if c == ',' then [] :: w :: ws else (c :: w) :: ws

/-- The command of an opcode and its fields: `RSV` is 0, an absent scalar is 0, an absent operand is
empty (R82). -/
def AsmFields.command (f : AsmFields) (op : Opcode) : Command where
  word := packWord (f.scalar.getD 0) 0 op.code
  opa := f.opa.getD []
  opb := f.opb.getD []

/-- The command of a line without a binding (R82); none where the text is no command. -/
def assembleCommand (vars : HostVars) (text : List Char) : Option Command :=
  let t := trimBlanks text
  let rest := trimBlanks (t.dropWhile fun c => !isBlank c)
  let fields := if rest.isEmpty then [] else (splitCommas rest).map trimBlanks
  match opcodeOfMnemonic (t.takeWhile fun c => !isBlank c), readFields vars {} fields with
  | some op, some f => some (f.command op)
  | _, _ => none

/-- A line of a host program: the name to keep the result under, if any, and the command (R82). -/
def assembleLine (vars : HostVars) (text : List Char) : Option (Option (List Char) × Command) :=
  match trimBlanks text with
  | '$' :: rest =>
    let name := rest.takeWhile fun c => !(isBlank c || c == '<')
    match trimBlanks (rest.drop name.length) with
    | '<' :: '-' :: cmd => (assembleCommand vars cmd).map fun c => (some name, c)
    | _ => none
  | t => (assembleCommand vars t).map fun c => (none, c)

/-- The host keeps the result of a command under its name when its status is `OK` (R82). -/
def bindResult (vars : HostVars) (name : Option (List Char)) (s : State) : HostVars :=
  match name with
  | none => vars
  | some n => if s.rspStatus = okCode then (n, s.rspData) :: vars else vars

end Sys2Proof.Machine
end

