-- ==== Sys2Proof/Safety.lean ====
section
/-! DEFINITION. The terms claims about the engine are stated in: how a command completes, what stays
as it was, when the engine is running, the invariant of its state, and closed forms of the two
derivation functions. -/

namespace Sys2Proof.Machine

/-- The first check of decoding passes: `OPC` is one of the nine values and `RSV` is 0 (30_encoding.md
R75). The fields are read as digits of the word's number, `OPC` its last byte and `RSV` the 24 bits
above it (R71). -/
def FirstCheckPasses (c : Command) : Prop :=
  1 ≤ c.word.toNat % 256 ∧ c.word.toNat % 256 ≤ 9 ∧ c.word.toNat / 256 % 2 ^ 24 = 0

/-- The second check of decoding passes: what the opcode does not use is 0 or empty (30_encoding.md
R76). The opcodes that use a field are written out from the tables of R73 and R74. -/
def SecondCheckPasses (c : Command) : Prop :=
  (c.word.toNat % 256 ∉ [1, 4, 5, 9] → c.word.toNat / 2 ^ 32 = 0) ∧
  (c.word.toNat % 256 ∉ [2, 3, 4, 5, 8, 9] → c.opa.length = 0) ∧
  (c.word.toNat % 256 ≠ 3 → c.opb.length = 0)

/-- The third check of decoding passes: no operand is over the limit (30_encoding.md R77). -/
def ThirdCheckPasses (maxBytes : Nat) (c : Command) : Prop :=
  c.opa.length ≤ maxBytes ∧ c.opb.length ≤ maxBytes

/-- Outside the response registers, `PHASE` and the record of primitive requests, `t` is `s`
(60_exceptions.md R214). -/
structure SameElsewhere (s t : State) : Prop where
  params : t.params = s.params
  cfg : t.cfg = s.cfg
  kFixed : t.kFixed = s.kFixed
  inReset : t.inReset = s.inReset
  pins : t.pins = s.pins
  future : t.future = s.future

/-- From `s`, the command completes in `t` with status `OK` and the result `bytes`, having made the
primitive requests `reqs`; nothing else changes (60_exceptions.md R214). -/
structure CompletesWith (s t : State) (bytes : Bytes) (reqs : List PrimReq) : Prop where
  phase : t.phase = .done
  status : t.rspStatus = 0x00
  len : t.rspLen.toNat = bytes.length
  data : t.rspData = bytes
  requests : t.primReqs = reqs
  frame : SameElsewhere s t

/-- From `s`, the command completes in `t` with an error of status `code`: no output, no primitive
request, nothing else changes (60_exceptions.md R211, R214). -/
structure FailsWith (s t : State) (code : BitVec 8) : Prop where
  phase : t.phase = .done
  status : t.rspStatus = code
  len : t.rspLen = 0
  data : t.rspData = []
  requests : t.primReqs = []
  frame : SameElsewhere s t

/-- The response registers of two states agree (10_state.md R29 to R31). -/
structure SameResponse (s t : State) : Prop where
  status : t.rspStatus = s.rspStatus
  len : t.rspLen = s.rspLen
  data : t.rspData = s.rspData

/-- The engine is out of reset with a well-formed configuration: it runs. -/
def State.running (s : State) : Bool := !s.pins.rst && !s.inReset && s.wfConfig

/-- What holds of every state a run from reset can reach. -/
structure State.Inv (s : State) : Prop where
  /-- The ROM holds the fixed constant key (10_state.md R27). -/
  romHolds : s.kFixed = fixedKey
  /-- The configuration is well formed (00_scope.md R10). -/
  configured : s.wfConfig = true
  /-- `RSP_LEN` is the length of `RSP_DATA` (10_state.md R30, R31). -/
  lenIsLength : s.rspLen.toNat = s.rspData.length
  /-- The status is a code the engine produces (60_exceptions.md R210). -/
  statusLegal : legalStatus s.rspStatus = true
  /-- A failed command has no output and called no primitive (60_exceptions.md R211). -/
  errorEmpty : failedStatus s.rspStatus = true → s.rspData = [] ∧ s.primReqs = []
  /-- The result fits `RSP_DATA` (10_state.md R31). -/
  withinCapacity : s.rspData.length ≤ s.rspCapacity
  /-- Requests are made on the port that is present (30_encoding.md R84). -/
  requestsOnPort : ∀ r ∈ s.primReqs, r.onCipherPort = s.cipherPortPresent
  /-- In reset the engine is idle with its reset response (70_reset_and_hazards.md R240). That the
  response registers hold their reset values before `rst` falls is log entry 6. -/
  resetIdle : s.inReset = true → s.phase = .idle ∧ s.rspStatus = 0x00 ∧ s.rspData = []

/-- The chaining value after the blocks of `data`, from `chain`: `c_{j+1} = E(K, xor(c_j, D_j))`
(41_bcc.md R122). -/
def chainFrom (E : Cipher) (outlen : Nat) (key chain data : Bytes) : Bytes :=
  (blocks data outlen).foldl (fun c B => E key (xorBytes c B)) chain

/-- The requests of `bcc(K, D)`: for each block in order, one call of `E` with key `K` on the exclusive
or of the block and the chaining value of the blocks before it (41_bcc.md R120). -/
def chainRequests (E : Cipher) (outlen : Nat) (key data : Bytes) : List PrimReq :=
  (List.range (data.length / outlen)).map fun j =>
    .cipher key (xorBytes (chainFrom E outlen key (zeros outlen) (data.take (j * outlen)))
      ((data.drop (j * outlen)).take outlen))

/-- The rounds of the chaining stage, `c = ceil((KL + OUTLEN) / OUTLEN)` (42_ctr_df.md R144). -/
def chainRounds (kl outlen : Nat) : Nat := ceilDiv (kl + outlen) outlen

/-- `temp` at the end of the chaining stage: the chaining values of `IV_0 ++ S` to `IV_(c-1) ++ S`, in
order (42_ctr_df.md R144). -/
def tempOf (E : Cipher) (outlen kl : Nat) (k0 str : Bytes) : Bytes :=
  (List.range (chainRounds kl outlen)).flatMap fun i =>
    chainFrom E outlen k0 (zeros outlen) (ivBlock outlen i ++ str)

/-- The first `n` blocks of the expansion stage: `E(K1, X0)`, `E(K1, E(K1, X0))`, and so on
(42_ctr_df.md R146). -/
def expandedFrom (E : Cipher) (k1 x : Bytes) (n : Nat) : Bytes :=
  (List.range n).flatMap fun j => (E k1)^[j + 1] x

/-- `ctr_df(seed, nbits)` without a loop condition: `c` rounds of chaining, `ceil(nb / OUTLEN)`
blocks of expansion (42_ctr_df.md R144 to R147). -/
def ctrDfClosed (E : Cipher) (outlen kl : Nat) (k0 seed : Bytes) (nbits : Nat) : Bytes :=
  let nb := nbits / 8
  let temp := tempOf E outlen kl k0 (paddedString outlen seed nb)
  (expandedFrom E (temp.take kl) ((temp.drop kl).take outlen) (ceilDiv nb outlen)).take nb

/-- `V + i` modulo `2^(8 len(V))`, in the bytes of `V` (43_hashgen.md R172). -/
def counterPlus (v : Bytes) (i : Nat) : Bytes :=
  bytesBE ((intBE v + i) % 2 ^ (8 * v.length)) v.length

/-- `hashgen(V, nbits)` without a loop: the digests of `V`, `V + 1`, ... `V + m − 1`, truncated
(43_hashgen.md R171 to R173). -/
def hashgenClosed (H : Digest) (outlen : Nat) (v : Bytes) (nbits : Nat) : Bytes :=
  ((List.range (ceilDiv (nbits / 8) outlen)).flatMap fun i => H (counterPlus v i)).take (nbits / 8)

/-- The requests of `hashgen(V, nbits)`: one on each of `V`, `V + 1`, ... `V + m − 1`
(43_hashgen.md R172, R174). -/
def hashgenRequests (outlen : Nat) (v : Bytes) (nbits : Nat) : List PrimReq :=
  (List.range (ceilDiv (nbits / 8) outlen)).map fun i => .digest (counterPlus v i)

end Sys2Proof.Machine
end

