-- ==== Sys2Proof/Certificates/Slice0/Obligations.lean ====
section
/-! DEFINITION. The statements about the engine, one `def Obligations.<Name> : Prop` each. The rules
R<n> are those of spec/. -/

open Sys2Proof Sys2Proof.Machine

/-! ### Decoding and encoding (30_encoding.md) -/

/-- One word of each row, with empty operands, decodes to the row's instruction (R71, R73; the words
are those of 95_test_vectors.md section 3). -/
def Obligations.TableWordsDecode : Prop :=
  decodeTableWord 64 0x0102030400000001 = some (.encU32 0x01020304) ∧
  decodeTableWord 64 0x0000000000000002 = some (.inc []) ∧
  decodeTableWord 64 0x0000000000000003 = some (.bcc [] []) ∧
  decodeTableWord 64 0x0000000C00000004 = some (.ctrDf 12 []) ∧
  decodeTableWord 64 0x0000010800000005 = some (.hashgen 264 []) ∧
  decodeTableWord 64 0x0000000000000006 = some .dfSeedlen ∧
  decodeTableWord 64 0x0000000000000007 = some .dfStrength ∧
  decodeTableWord 64 0x0000000000000008 = some (.dfDerive []) ∧
  decodeTableWord 64 0x0000002800000009 = some (.dfGenerate 40 [])

/-- Decoding the command of a well-formed instruction gives the instruction back, with every operand
at every value (R70 to R74, R79). -/
def Obligations.DecodeOfEncode : Prop :=
  ∀ (maxBytes : Nat) (i : Instr), i.wellFormed maxBytes = true →
    decodeCommand maxBytes (encode i) = .ok i

/-- A command that decodes is the command of its instruction: no two commands stand for one
instruction, and its operands are within the limit (R70 to R77). -/
def Obligations.EncodeOfDecode : Prop :=
  ∀ (maxBytes : Nat) (c : Command) (i : Instr), decodeCommand maxBytes c = .ok i →
    encode i = c ∧ i.wellFormed maxBytes = true

/-- Every command decodes, and to what the three checks say: it is rejected with IllegalCommand exactly
where the first or the second check fails (R75, R76), with LengthExceeded exactly where those pass and
the third fails (R77), and it is an instruction exactly where all three pass (R79). -/
def Obligations.DecodeIsTotal : Prop :=
  ∀ (maxBytes : Nat) (c : Command),
    ((∃ r, decodeCommand maxBytes c = .error r ∧ r.errorCode = .illegalCommand) ↔
      ¬(FirstCheckPasses c ∧ SecondCheckPasses c)) ∧
    ((∃ r, decodeCommand maxBytes c = .error r ∧ r.errorCode = .lengthExceeded) ↔
      FirstCheckPasses c ∧ SecondCheckPasses c ∧ ¬ThirdCheckPasses maxBytes c) ∧
    ((∃ i, decodeCommand maxBytes c = .ok i) ↔
      FirstCheckPasses c ∧ SecondCheckPasses c ∧ ThirdCheckPasses maxBytes c)

/-- A reserved opcode, or reserved bits that are not zero, completes with IllegalCommand and no output
(R75). The word's fields are read as digits of its number. -/
def Obligations.ReservedEncodingIsIllegal : Prop :=
  ∀ (s : State) (c : Command), s.running = true → s.phase = .busy c →
    (c.word.toNat % 256 = 0 ∨ 10 ≤ c.word.toNat % 256 ∨ c.word.toNat / 256 % 2 ^ 24 ≠ 0) →
    ∃ t, step s = .next t ∧ FailsWith s.tick t 0x05

/-- After the first check passes, an unused field in use completes with IllegalCommand and no output
(R76). Which fields an opcode uses is written out from the table of R74. -/
def Obligations.UnusedFieldIsIllegal : Prop :=
  ∀ (s : State) (c : Command) (op : Opcode), s.running = true → s.phase = .busy c →
    c.word.toNat % 2 ^ 32 = op.code.toNat →
    ((op ∉ [.encU32, .ctrDf, .hashgen, .dfGenerate] ∧ c.word.toNat / 2 ^ 32 ≠ 0) ∨
      (op ∈ [.encU32, .dfSeedlen, .dfStrength] ∧ c.opa.length ≠ 0) ∨
      (op ≠ .bcc ∧ c.opb.length ≠ 0)) →
    ∃ t, step s = .next t ∧ FailsWith s.tick t 0x05

/-- After the first two checks pass, an operand longer than `MAX_OPERAND_BYTES` completes with
LengthExceeded and no output (R77). The commands that pass them are those of the instructions. -/
def Obligations.OverlongOperandExceeds : Prop :=
  ∀ (s : State) (i : Instr), s.running = true → s.phase = .busy (encode i) →
    (s.params.maxOperandBytes < i.opa.length ∨ s.params.maxOperandBytes < i.opb.length) →
    ∃ t, step s = .next t ∧ FailsWith s.tick t 0x03

/-- The command word as 8 bytes is big-endian and reads back (R81). -/
def Obligations.CommandWordBytesBigEndian : Prop :=
  ∀ w : BitVec 64,
    wordToBytes w = [w.extractLsb' 56 8, w.extractLsb' 48 8, w.extractLsb' 40 8, w.extractLsb' 32 8,
      w.extractLsb' 24 8, w.extractLsb' 16 8, w.extractLsb' 8 8, w.extractLsb' 0 8] ∧
    wordOfBytes (wordToBytes w) = some w

/-- Each mnemonic alone assembles to the command of its opcode with an absent scalar of 0 and absent
operands empty (R82, R83). -/
def Obligations.MnemonicsAssemble : Prop :=
  ∀ (vars : HostVars) (op : Opcode),
    assembleCommand vars (mnemonic op) = some ⟨packWord 0 0 op.code, [], []⟩

/-- Whatever text assembles has `RSV` 0 and one of the nine opcodes: no line expands to a reserved
encoding (R82, R83). -/
def Obligations.AssembledWordsPassFirstCheck : Prop :=
  ∀ (vars : HostVars) (text : List Char) (c : Command), assembleCommand vars text = some c →
    ∃ op, Opcode.ofByte (opcField c.word) = some op ∧ rsvField c.word = 0

/-! ### Byte strings and the counter (00_scope.md, 40_counter.md) -/

/-- `bytes_be` and `int_be` are inverse to each other where the spec defines them (R12). -/
def Obligations.BigEndianRoundTrip : Prop :=
  (∀ v n : Nat, v < 2 ^ (8 * n) → (bytesBE v n).length = n ∧ intBE (bytesBE v n) = v) ∧
  ∀ b : Bytes, bytesBE (intBE b) b.length = b

/-- `incrementModPow2` keeps the length and adds one modulo `2^(8n)`; bytewise, it increments the last
byte that is not 0xFF and zeroes the bytes to its right; all 0xFF becomes all zero (R101). -/
def Obligations.IncrementWrapsBytewise : Prop :=
  (∀ b : Bytes, (incrementModPow2 b).length = b.length ∧
    intBE (incrementModPow2 b) = (intBE b + 1) % 2 ^ (8 * b.length)) ∧
  (∀ (b : Bytes) (x : Byte) (n : Nat), x ≠ 0xFF →
    incrementModPow2 (b ++ [x] ++ List.replicate n 0xFF) = b ++ [x + 1] ++ List.replicate n 0x00) ∧
  ∀ n : Nat, incrementModPow2 (List.replicate n 0xFF) = List.replicate n 0x00

/-- ENC_U32 completes with the 4 bytes of its value, most significant first (R100, R102). -/
def Obligations.EncU32Completes : Prop :=
  ∀ (v : BitVec 32) (s : State), ∃ t, exec (.encU32 v) s = .next t ∧
    CompletesWith s t
      [v.extractLsb' 24 8, v.extractLsb' 16 8, v.extractLsb' 8 8, v.extractLsb' 0 8] []

/-- INC completes with a byte string of the length of its operand that stands for one more, modulo
`2^(8 len)` (R101, R103). An accepted operand is shorter than `2^32` bytes (R9, R77). -/
def Obligations.IncCompletes : Prop :=
  ∀ (b : Bytes) (s : State), b.length < 2 ^ 32 → ∃ t out, exec (.inc b) s = .next t ∧
    CompletesWith s t out [] ∧ out.length = b.length ∧
    intBE out = (intBE b + 1) % 2 ^ (8 * b.length)

/-! ### The chaining compressor (41_bcc.md) -/

/-- Under its preconditions BCC completes with the last chaining value, `OUTLEN` bytes long, after
exactly `len(D)/OUTLEN` calls of `E`, all with key `K`, in block order (R120, R121). -/
def Obligations.BccCompletes : Prop :=
  ∀ (data key : Bytes) (s : State), s.wfConfig = true → s.cfg.prim = .cipher → s.keyOK = true →
    key.length = s.keyBytes → 0 < data.length → data.length % s.outlen = 0 →
    ∃ t, exec (.bcc data key) s = .next t ∧
      CompletesWith s t (chainFrom s.cipher s.outlen key (zeros s.outlen) data)
        (chainRequests s.cipher s.outlen key data) ∧
      t.rspLen.toNat = s.outlen

/-- BCC's errors in their order (R121, R213): the variant, the key size, the length of the key, the
length of the data. -/
def Obligations.BccFailsInOrder : Prop :=
  ∀ (data key : Bytes) (s : State),
    (s.cfg.prim = .digest → ∃ t, exec (.bcc data key) s = .next t ∧ FailsWith s t 0x06) ∧
    (s.cfg.prim = .cipher → s.keyOK = false →
      ∃ t, exec (.bcc data key) s = .next t ∧ FailsWith s t 0x04) ∧
    (s.cfg.prim = .cipher → s.keyOK = true → key.length ≠ s.keyBytes →
      ∃ t, exec (.bcc data key) s = .next t ∧ FailsWith s t 0x01) ∧
    (s.cfg.prim = .cipher → s.keyOK = true → key.length = s.keyBytes →
      (data.length = 0 ∨ data.length % s.outlen ≠ 0) →
      ∃ t, exec (.bcc data key) s = .next t ∧ FailsWith s t 0x01)

/-- BCC over `D ++ D'` is BCC over `D'` started from BCC over `D`, and over one block it is one call of
`E` (R121, R122). -/
def Obligations.BccChainsAcrossBlocks : Prop :=
  ∀ (E : Cipher) (outlen : Nat) (key d d' : Bytes), 0 < outlen →
    (d.length % outlen = 0 → (bcc E outlen key (d ++ d')).bytes =
      (chainBlocks E key (blocks d' outlen) (bcc E outlen key d).bytes).bytes) ∧
    (d.length = outlen → (bcc E outlen key d).bytes = E key d)

/-! ### The counter derivation function (42_ctr_df.md) -/

/-- The padded string is `L ++ N ++ seed ++ [0x80]` and fewer than `OUTLEN` zero bytes, `OUTLEN ·
ceil((len(seed) + 9) / OUTLEN)` bytes in all, with no zero byte where none is needed (R142). -/
def Obligations.PaddedStringShape : Prop :=
  ∀ (outlen : Nat) (seed : Bytes) (nb : Nat), 0 < outlen →
    ∃ p, p < outlen ∧
      paddedString outlen seed nb =
        bytesBE seed.length 4 ++ bytesBE nb 4 ++ seed ++ [0x80] ++ List.replicate p 0x00 ∧
      (paddedString outlen seed nb).length = outlen * ((seed.length + 9 + outlen - 1) / outlen) ∧
      ((seed.length + 9) % outlen = 0 → p = 0)

/-- The chaining key is 0x00, 0x01, ..., `KL − 1` (R143), `KL` between 1 and 32, wherever the ROM holds
the fixed key. -/
def Obligations.ChainingKeyCounts : Prop :=
  ∀ s : State, s.kFixed = fixedKey → s.keyOK = true →
    s.chainingKey = (List.range s.keyBytes).map (BitVec.ofNat 8) ∧
    s.chainingKey.length = s.keyBytes ∧ 1 ≤ s.keyBytes ∧ s.keyBytes ≤ 32

/-- The chaining stage runs `c = ceil((KL + OUTLEN) / OUTLEN)` rounds: it gives the `c` chaining values
of `IV_i ++ S` in order, `c · OUTLEN` bytes, at least `KL + OUTLEN`, with `c · (1 + len(S)/OUTLEN)`
calls of `E` (R144, R150). -/
def Obligations.ChainStageRounds : Prop :=
  ∀ (E : Cipher) (outlen kl : Nat) (k0 str : Bytes),
    (∀ k b, (E k b).length = outlen) → 4 ≤ outlen →
    let temp := chainStage E outlen (kl + outlen) k0 str (kl + outlen) 0 Traced.empty
    temp.bytes = tempOf E outlen kl k0 str ∧
    temp.bytes.length = chainRounds kl outlen * outlen ∧ kl + outlen ≤ temp.bytes.length ∧
    temp.reqs.length = chainRounds kl outlen * (1 + str.length / outlen)

/-- Under its preconditions CTR_DF completes with `ctr_df(seed, NBITS)`, `NBITS / 8` bytes: two counted
stages in place of the engine's two loops (R140 to R149). How many requests it makes is said by
CtrDfWork. -/
def Obligations.CtrDfCompletes : Prop :=
  ∀ (nbits : BitVec 32) (seed : Bytes) (s : State),
    s.wfConfig = true → s.cfg.prim = .cipher → s.keyOK = true →
    nbits.toNat ≠ 0 → nbits.toNat % 8 = 0 → nbits.toNat ≤ s.params.maxDfBits →
    ∃ t reqs, exec (.ctrDf nbits seed) s = .next t ∧
      CompletesWith s t
        (ctrDfClosed s.cipher s.outlen s.keyBytes s.chainingKey seed nbits.toNat) reqs ∧
      t.rspLen.toNat = nbits.toNat / 8

/-- The work of a CTR_DF that passes its checks: `c · (1 + len(S)/OUTLEN) + ceil(nb / OUTLEN)` calls of
`E`, with `len(S) = OUTLEN · ceil((sl + 9) / OUTLEN)` and at most 9 chaining rounds (R150, R249). -/
def Obligations.CtrDfWork : Prop :=
  ∀ (nbits : BitVec 32) (seed : Bytes) (s t : State),
    s.wfConfig = true → s.cfg.prim = .cipher → s.keyOK = true →
    nbits.toNat ≠ 0 → nbits.toNat % 8 = 0 → nbits.toNat ≤ s.params.maxDfBits →
    exec (.ctrDf nbits seed) s = .next t →
    t.primReqs.length =
      chainRounds s.keyBytes s.outlen * (1 + ceilDiv (seed.length + 9) s.outlen) +
        ceilDiv (nbits.toNat / 8) s.outlen ∧
    chainRounds s.keyBytes s.outlen ≤ 9

/-- CTR_DF's errors in their order (R140, R149, R213): the variant, the key size, alignment or zero,
the maximum. -/
def Obligations.CtrDfFailsInOrder : Prop :=
  ∀ (nbits : BitVec 32) (seed : Bytes) (s : State),
    (s.cfg.prim = .digest → ∃ t, exec (.ctrDf nbits seed) s = .next t ∧ FailsWith s t 0x06) ∧
    (s.cfg.prim = .cipher → s.keyOK = false →
      ∃ t, exec (.ctrDf nbits seed) s = .next t ∧ FailsWith s t 0x04) ∧
    (s.cfg.prim = .cipher → s.keyOK = true → (nbits.toNat = 0 ∨ nbits.toNat % 8 ≠ 0) →
      ∃ t, exec (.ctrDf nbits seed) s = .next t ∧ FailsWith s t 0x02) ∧
    (s.cfg.prim = .cipher → s.keyOK = true → nbits.toNat ≠ 0 → nbits.toNat % 8 = 0 →
      s.params.maxDfBits < nbits.toNat →
      ∃ t, exec (.ctrDf nbits seed) s = .next t ∧ FailsWith s t 0x03)

/-- The length fields fill the first 8 bytes of `S`, so seeds of different lengths, or requests of
different lengths, never give the same `S` (R151). -/
def Obligations.LengthPrefixSeparates : Prop :=
  ∀ (outlen : Nat) (seed seed' : Bytes) (nb nb' : Nat),
    seed.length < 2 ^ 32 → seed'.length < 2 ^ 32 → nb < 2 ^ 32 → nb' < 2 ^ 32 →
    (paddedString outlen seed nb).take 8 = bytesBE seed.length 4 ++ bytesBE nb 4 ∧
    (seed.length ≠ seed'.length ∨ nb ≠ nb' →
      paddedString outlen seed nb ≠ paddedString outlen seed' nb')

/-! ### The hash expansion (43_hashgen.md) -/

/-- Under its preconditions HASHGEN completes with the digests of `V`, `V + 1`, ... cut to `NBITS / 8`
bytes, after exactly `m` calls of `H`, one on each of them (R170 to R174, R176). -/
def Obligations.HashgenCompletes : Prop :=
  ∀ (nbits : BitVec 32) (v : Bytes) (s : State), s.wfConfig = true → s.cfg.prim = .digest →
    nbits.toNat % 8 = 0 → nbits.toNat ≤ s.params.maxHashgenBits →
    ∃ t, exec (.hashgen nbits v) s = .next t ∧
      CompletesWith s t (hashgenClosed s.digest s.outlen v nbits.toNat)
        (hashgenRequests s.outlen v nbits.toNat) ∧
      t.rspLen.toNat = nbits.toNat / 8

/-- HASHGEN's errors in their order (R170, R176, R213): the variant, alignment, the maximum. -/
def Obligations.HashgenFailsInOrder : Prop :=
  ∀ (nbits : BitVec 32) (v : Bytes) (s : State),
    (s.cfg.prim = .cipher → ∃ t, exec (.hashgen nbits v) s = .next t ∧ FailsWith s t 0x06) ∧
    (s.cfg.prim = .digest → nbits.toNat % 8 ≠ 0 →
      ∃ t, exec (.hashgen nbits v) s = .next t ∧ FailsWith s t 0x02) ∧
    (s.cfg.prim = .digest → nbits.toNat % 8 = 0 → s.params.maxHashgenBits < nbits.toNat →
      ∃ t, exec (.hashgen nbits v) s = .next t ∧ FailsWith s t 0x03)

/-- Up to one digest of bits, `hashgen(V, nbits)` is the leftmost bytes of `H(V)` (R177). -/
def Obligations.HashgenWithinOneDigest : Prop :=
  ∀ (H : Digest) (outlen : Nat) (v : Bytes) (nbits : Nat), 1 ≤ outlen →
    nbits ≤ 8 * outlen → nbits % 8 = 0 →
    (hashgen H outlen v nbits).bytes = (H v).take (nbits / 8)

/-! ### The contract (44_df_contract.md) -/

/-- DF_SEEDLEN completes with the 4 bytes of `CFG_SEEDLEN_BITS`, on both variants (R191). -/
def Obligations.DfSeedlenCompletes : Prop :=
  ∀ s : State, ∃ t, exec .dfSeedlen s = .next t ∧
    CompletesWith s t
      [s.cfg.seedlenBits.extractLsb' 24 8, s.cfg.seedlenBits.extractLsb' 16 8,
       s.cfg.seedlenBits.extractLsb' 8 8, s.cfg.seedlenBits.extractLsb' 0 8] []

/-- DF_STRENGTH completes with the 2 bytes of `CFG_STRENGTH_BITS` after two zero bytes, on both
variants (R192). -/
def Obligations.DfStrengthCompletes : Prop :=
  ∀ s : State, ∃ t, exec .dfStrength s = .next t ∧
    CompletesWith s t
      [0x00, 0x00, s.cfg.strengthBits.extractLsb' 8 8, s.cfg.strengthBits.extractLsb' 0 8] []

/-- On the CTR-DF variant DF_DERIVE completes with `ctr_df(seed, CFG_SEEDLEN_BITS)` (R190, R193). -/
def Obligations.DfDeriveCompletes : Prop :=
  ∀ (seed : Bytes) (s : State), s.wfConfig = true → s.cfg.prim = .cipher → s.keyOK = true →
    s.seedlen ≠ 0 → s.seedlen % 8 = 0 → s.seedlen ≤ s.params.maxDfBits →
    ∃ t reqs, exec (.dfDerive seed) s = .next t ∧
      CompletesWith s t
        (ctrDfClosed s.cipher s.outlen s.keyBytes s.chainingKey seed s.seedlen) reqs ∧
      t.rspLen.toNat = s.seedlen / 8

/-- DF_DERIVE's errors in their order (R190, R193, R213): the variant, the key size, alignment or zero
of `CFG_SEEDLEN_BITS`, the maximum. -/
def Obligations.DfDeriveFailsInOrder : Prop :=
  ∀ (seed : Bytes) (s : State),
    (s.cfg.prim = .digest → ∃ t, exec (.dfDerive seed) s = .next t ∧ FailsWith s t 0x06) ∧
    (s.cfg.prim = .cipher → s.keyOK = false →
      ∃ t, exec (.dfDerive seed) s = .next t ∧ FailsWith s t 0x04) ∧
    (s.cfg.prim = .cipher → s.keyOK = true → (s.seedlen = 0 ∨ s.seedlen % 8 ≠ 0) →
      ∃ t, exec (.dfDerive seed) s = .next t ∧ FailsWith s t 0x02) ∧
    (s.cfg.prim = .cipher → s.keyOK = true → s.seedlen ≠ 0 → s.seedlen % 8 = 0 →
      s.params.maxDfBits < s.seedlen →
      ∃ t, exec (.dfDerive seed) s = .next t ∧ FailsWith s t 0x03)

/-- On the HashGen variant DF_GENERATE completes with `hashgen(V, NBITS)` (R190, R194). -/
def Obligations.DfGenerateCompletes : Prop :=
  ∀ (nbits : BitVec 32) (v : Bytes) (s : State), s.wfConfig = true → s.cfg.prim = .digest →
    nbits.toNat % 8 = 0 → nbits.toNat ≤ s.params.maxHashgenBits →
    ∃ t, exec (.dfGenerate nbits v) s = .next t ∧
      CompletesWith s t (hashgenClosed s.digest s.outlen v nbits.toNat)
        (hashgenRequests s.outlen v nbits.toNat) ∧
      t.rspLen.toNat = nbits.toNat / 8

/-- DF_GENERATE's errors in their order (R190, R194, R213). -/
def Obligations.DfGenerateFailsInOrder : Prop :=
  ∀ (nbits : BitVec 32) (v : Bytes) (s : State),
    (s.cfg.prim = .cipher → ∃ t, exec (.dfGenerate nbits v) s = .next t ∧ FailsWith s t 0x06) ∧
    (s.cfg.prim = .digest → nbits.toNat % 8 ≠ 0 →
      ∃ t, exec (.dfGenerate nbits v) s = .next t ∧ FailsWith s t 0x02) ∧
    (s.cfg.prim = .digest → nbits.toNat % 8 = 0 → s.params.maxHashgenBits < nbits.toNat →
      ∃ t, exec (.dfGenerate nbits v) s = .next t ∧ FailsWith s t 0x03)

/-- DF_DERIVE gives the same outcome as CTR_DF with `NBITS = CFG_SEEDLEN_BITS`, and DF_GENERATE the
same as HASHGEN, from every state (R193, R194). -/
def Obligations.ContractIsItsAlgorithm : Prop :=
  (∀ (seed : Bytes) (s : State),
    exec (.dfDerive seed) s = exec (.ctrDf s.cfg.seedlenBits seed) s) ∧
  ∀ (nbits : BitVec 32) (v : Bytes) (s : State),
    exec (.dfGenerate nbits v) s = exec (.hashgen nbits v) s

/-! ### Configuration (00_scope.md) -/

/-- `keyOK` holds exactly for a supported size of whole bytes between 8 and 256 bits (R8), and then the
key has 1 to 32 bytes. -/
def Obligations.KeyOkMeans : Prop :=
  ∀ s : State,
    (s.keyOK = true ↔ (s.cfg.keylenBits.toNat ∈ s.params.cipherKeySizes ∧
      s.cfg.keylenBits.toNat % 8 = 0 ∧ 8 ≤ s.cfg.keylenBits.toNat ∧
      s.cfg.keylenBits.toNat ≤ 256)) ∧
    (s.keyOK = true → s.cfg.keylenBits.toNat = 8 * s.keyBytes ∧ 1 ≤ s.keyBytes ∧ s.keyBytes ≤ 32)

/-- At the fall of `rst`, a configuration whose `OUTLEN` is not the primitive's size, is below 4 for a
cipher or below 1 for a digest, or an operand limit of `2^32` or more, is refused, and no other
(R10, R226). That the configuration is the one on the ports in the step of the fall is the model's
choice (log entry 22). -/
def Obligations.IllFormedConfigIsRefused : Prop :=
  ∀ s : State, s.pins.rst = false → s.inReset = true →
    (step s = .refused .illFormedConfig ↔
      ((s.pins.cfgPrim = 0 ∧ (s.pins.cfgOutlenBytes.toNat ≠ s.params.cipher.blockBytes ∨
          s.pins.cfgOutlenBytes.toNat < 4)) ∨
        (s.pins.cfgPrim = 1 ∧ (s.pins.cfgOutlenBytes.toNat ≠ s.params.digest.digestBytes ∨
          s.pins.cfgOutlenBytes.toNat < 1)) ∨
        2 ^ 32 ≤ s.params.maxOperandBytes))

/-! ### Steps, hand-overs and reset (60_exceptions.md, 70_reset_and_hazards.md) -/

/-- A running engine whose accepted command decodes runs its instruction, on the state whose input
ports have moved on; nothing else happens in the step. -/
def Obligations.StepRunsTheAcceptedCommand : Prop :=
  ∀ (s : State) (c : Command) (i : Instr), s.running = true → s.phase = .busy c →
    decodeCommand s.params.maxOperandBytes c = .ok i → step s = exec i s.tick

/-- A row's word placed in a state with a well-formed configuration is what the next step runs. -/
def Obligations.PlacedWordRuns : Prop :=
  ∀ (s : State) (nbits w : Nat) (i : Instr), s.wfConfig = true →
    decodeTableWord nbits w = some i →
    step (s.withFetchWord nbits w) = exec i (s.withFetchWord nbits w).tick

/-- A command presented to an idle engine is accepted as it stands on the ports, and `cmd_ready` falls
(R244); without one the engine holds its state; the response registers keep their values. -/
def Obligations.IdleEngineAccepts : Prop :=
  ∀ s : State, s.running = true → s.phase = .idle →
    s.cmdReady = true ∧
    (s.pins.cmdValid = true → ∃ t, step s = .next t ∧ t.phase = .busy s.pins.cmd ∧
      t.cmdReady = false ∧ SameResponse s t ∧ t.cfg = s.cfg ∧ t.kFixed = s.kFixed ∧
      t.params = s.params ∧ t.inReset = s.inReset ∧ t.primReqs = s.primReqs) ∧
    (s.pins.cmdValid = false → step s = .next s.tick)

/-- While a response waits, no command is accepted; when the host takes it, the engine goes idle and the
response registers keep their values (R215, R245). -/
def Obligations.ResponseHandOver : Prop :=
  ∀ s : State, s.running = true → s.phase = .done →
    s.rspValid = true ∧ s.cmdReady = false ∧
    (s.pins.rspReady = false → step s = .next s.tick) ∧
    (s.pins.rspReady = true → ∃ t, step s = .next t ∧ t.phase = .idle ∧ SameResponse s t ∧
      t.cfg = s.cfg ∧ t.kFixed = s.kFixed ∧ t.params = s.params ∧ t.inReset = s.inReset ∧
      t.primReqs = s.primReqs ∧ (t.pins.rst = false → t.cmdReady = true))

/-- The completion of a command, with `OK` or an error, writes the response registers, raises
`rsp_valid` and changes nothing else (R214). -/
def Obligations.CompletionWritesOnlyResponse : Prop :=
  ∀ (s t : State) (c : Command), s.running = true → s.phase = .busy c → step s = .next t →
    t.phase = .done ∧ SameElsewhere s.tick t ∧ (t.pins.rst = false → t.rspValid = true)

/-- The response registers change only at the completion of a command and in reset (R32). -/
def Obligations.ResponseChangesOnlyAtCompletion : Prop :=
  ∀ s t : State, step s = .next t → s.pins.rst = false → s.inReset = false →
    (∀ c, s.phase ≠ .busy c) → SameResponse s t

/-- A command that completes with a status other than `OK` has the code of one of the errors, no output
and no primitive request (R211). -/
def Obligations.ErrorGivesNoOutput : Prop :=
  ∀ (s t : State) (c : Command), s.running = true → s.phase = .busy c → step s = .next t →
    t.rspStatus ≠ 0x00 → (∃ e : ErrorCode, t.rspStatus = e.code) ∧ t.rspLen = 0 ∧
      t.rspData = [] ∧ t.primReqs = []

/-- The response to a command is a function of the command, the configuration, the fixed key and the
primitives alone (R36). -/
def Obligations.ResponseDependsOnCommandAlone : Prop :=
  ∀ (s s' t t' : State) (c : Command), s.running = true → s'.running = true →
    s.phase = .busy c → s'.phase = .busy c →
    s'.params = s.params → s'.cfg = s.cfg → s'.kFixed = s.kFixed →
    step s = .next t → step s' = .next t' → SameResponse t t' ∧ t'.primReqs = t.primReqs

/-- Running a command again, after any other command, gives the same response (R59). -/
def Obligations.RepeatedCommandRepeatsResponse : Prop :=
  ∀ (i j : Instr) (s t u v : State), exec i s = .next t → exec j t = .next u →
    exec i u = .next v → SameResponse t v

/-- A command presented to an idle running engine completes in two steps, with a status the engine
produces, unless reset comes between (R210, R247). -/
def Obligations.AcceptedCommandCompletes : Prop :=
  ∀ s : State, s.running = true → s.phase = .idle → s.pins.cmdValid = true →
    s.tick.pins.rst = false →
    ∃ t u, step s = .next t ∧ step t = .next u ∧ u.phase = .done ∧ u.rspStatus.toNat ≤ 6

/-- A step changes the configuration registers only at the fall of `rst`, where they take the levels of
the configuration inputs (R26, R241), those of the step of the fall by the model's choice (log
entry 22). -/
def Obligations.ConfigurationLoadsOnlyAtFall : Prop :=
  ∀ s t : State, step s = .next t →
    (s.pins.rst = false ∧ s.inReset = true →
      (t.cfg.prim = .cipher ↔ s.pins.cfgPrim = 0) ∧ t.cfg.keylenBits = s.pins.cfgKeylenBits ∧
      t.cfg.outlenBytes = s.pins.cfgOutlenBytes ∧ t.cfg.seedlenBits = s.pins.cfgSeedlenBits ∧
      t.cfg.strengthBits = s.pins.cfgStrengthBits) ∧
    (s.pins.rst = true ∨ s.inReset = false → t.cfg = s.cfg)

/-- The ROM holds `K_FIXED[j] = j`, and no step writes it, in reset or out of it (R27, R242). -/
def Obligations.FixedKeyNeverWritten : Prop :=
  (∀ j : Fin 32, State.reset.kFixed[j] = BitVec.ofNat 8 j.val) ∧
  ∀ s t : State, step s = .next t → t.kFixed = s.kFixed

/-- While `rst` is 1 the engine is in reset: not ready, no response, the command in progress abandoned,
the response registers at their reset values, no primitive request; it is ready again as soon as `rst`
is 0 (R84, R240, R250). That the response registers take their values before `rst` falls is the model's
choice (log entry 6). -/
def Obligations.ResetAbandonsCommand : Prop :=
  ∀ s : State, s.pins.rst = true →
    s.cmdReady = false ∧ s.rspValid = false ∧
    ∃ t, step s = .next t ∧ t.phase = .idle ∧ t.rspStatus = 0x00 ∧ t.rspLen = 0 ∧
      t.rspData = [] ∧ t.primReqs = [] ∧ (t.cmdReady = true ↔ t.pins.rst = false) ∧
      t.rspValid = false

/-- When `rst` falls on a well-formed configuration, every piece of state holds its reset value (R240),
the configuration registers the levels of the step of the fall by the model's choice (log entry 22). A
command presented in that step is accepted in it (R84, R244; log entry 7), so `PHASE` leaves IDLE then
and only then. -/
def Obligations.FallOfResetLoadsState : Prop :=
  ∀ s : State, s.pins.rst = false → s.inReset = true → wfCfg s.params (Cfg.sample s.pins) = true →
    ∃ t, step s = .next t ∧
      t.phase = (if s.pins.cmdValid then .busy s.pins.cmd else .idle) ∧ t.rspStatus = 0x00 ∧
      t.rspLen = 0 ∧ t.rspData = [] ∧ t.primReqs = [] ∧ t.cfg = Cfg.sample s.pins ∧
      t.kFixed = s.kFixed ∧ t.params = s.params ∧
      (t.pins.rst = false → t.running = true ∧ (t.cmdReady = true ↔ s.pins.cmdValid = false))

/-- The state after reset: idle, status 0, no response, the fixed key, and the configuration that the
input ports show (R240). The levels of those ports are the model's choice (log entry 2). -/
def Obligations.ResetStateValues : Prop :=
  State.reset.phase = .idle ∧ State.reset.rspStatus = 0x00 ∧ State.reset.rspLen = 0 ∧
  State.reset.rspData = [] ∧ State.reset.cfg = Cfg.sample State.reset.pins ∧
  State.reset.kFixed.toList = (List.range 32).map (BitVec.ofNat 8) ∧ State.reset.cmdReady = true

/-- The invariant holds of the state after reset. That its configuration is well formed rests on the
model's choice of it (log entry 2). -/
def Obligations.ResetMeetsInvariant : Prop := State.reset.Inv

/-- Every step keeps the invariant: the ROM, the well-formed configuration, a legal status, `RSP_LEN`
the length of `RSP_DATA`, no output after an error, results within the capacity, requests on the port
that is present, an idle engine in reset (R10, R27, R30, R31, R84, R210, R211, R240). The invariant's
last clause also says that the response registers hold their reset values while the engine is still in
reset, which is the model's reading and not R240's (log entry 6). -/
def Obligations.StepKeepsInvariant : Prop :=
  ∀ s t : State, s.Inv → step s = .next t → t.Inv

/-- From a state of the invariant the engine always has a next state, but at the fall of `rst` on an
ill-formed configuration (R78, R226, R247), which is read from the ports in that step by the model's
choice (log entry 22). -/
def Obligations.EngineNeverStops : Prop :=
  ∀ s : State, s.Inv →
    (s.pins.rst = true ∨ s.inReset = false ∨ wfCfg s.params (Cfg.sample s.pins) = true) →
    ∃ t, step s = .next t

/-- The two channels transfer exactly where their ports say (R84): `cmd_ready` is 1 exactly in IDLE with
`rst` at 0, the step of its fall included, and `rsp_valid` exactly in DONE with `rst` at 0 (R240); a
command is accepted, as it stands on the ports, exactly on the transfer of the command channel; a
response is taken exactly on the transfer of the response channel. The invariant is a premise because in
reset `PHASE` is IDLE. -/
def Obligations.TransfersAreTheHandOvers : Prop :=
  ∀ s t : State, s.Inv → step s = .next t →
    (s.cmdReady = true ↔ s.phase = .idle ∧ s.pins.rst = false) ∧
    (s.rspValid = true ↔ s.phase = .done ∧ s.pins.rst = false) ∧
    (s.pins.cmdValid = true → s.cmdReady = true → t.phase = .busy s.pins.cmd) ∧
    (∀ c, t.phase = .busy c → s.pins.cmdValid = true ∧ s.cmdReady = true) ∧
    (s.pins.rspReady = true → s.rspValid = true → t.phase = .idle) ∧
    (s.phase = .done → s.pins.rst = false → t.phase = .idle → s.pins.rspReady = true)
end

