-- ==== Sys2Proof/Laws/State.lean ====
section
/-! SUPPORT. One lemma per field per update of State: what each named operation leaves in each field.
Later proofs cite these and unfold no record update. -/

namespace Sys2Proof.Machine

@[simp] theorem State.respond_params (s : State) (r : Traced) :
    (s.respond r).params = s.params := rfl

@[simp] theorem State.respond_cfg (s : State) (r : Traced) :
    (s.respond r).cfg = s.cfg := rfl

@[simp] theorem State.respond_kFixed (s : State) (r : Traced) :
    (s.respond r).kFixed = s.kFixed := rfl

@[simp] theorem State.respond_phase (s : State) (r : Traced) :
    (s.respond r).phase = .done := rfl

@[simp] theorem State.respond_rspStatus (s : State) (r : Traced) :
    (s.respond r).rspStatus = okCode := rfl

@[simp] theorem State.respond_rspLen (s : State) (r : Traced) :
    (s.respond r).rspLen = BitVec.ofNat 32 r.bytes.length := rfl

@[simp] theorem State.respond_rspData (s : State) (r : Traced) :
    (s.respond r).rspData = r.bytes := rfl

@[simp] theorem State.respond_inReset (s : State) (r : Traced) :
    (s.respond r).inReset = s.inReset := rfl

@[simp] theorem State.respond_primReqs (s : State) (r : Traced) :
    (s.respond r).primReqs = r.reqs := rfl

@[simp] theorem State.respond_pins (s : State) (r : Traced) :
    (s.respond r).pins = s.pins := rfl

@[simp] theorem State.respond_future (s : State) (r : Traced) :
    (s.respond r).future = s.future := rfl

@[simp] theorem State.raise_params (s : State) (e : ErrorCode) :
    (s.raise e).params = s.params := rfl

@[simp] theorem State.raise_cfg (s : State) (e : ErrorCode) :
    (s.raise e).cfg = s.cfg := rfl

@[simp] theorem State.raise_kFixed (s : State) (e : ErrorCode) :
    (s.raise e).kFixed = s.kFixed := rfl

@[simp] theorem State.raise_phase (s : State) (e : ErrorCode) :
    (s.raise e).phase = .done := rfl

@[simp] theorem State.raise_rspStatus (s : State) (e : ErrorCode) :
    (s.raise e).rspStatus = e.code := rfl

@[simp] theorem State.raise_rspLen (s : State) (e : ErrorCode) :
    (s.raise e).rspLen = 0 := rfl

@[simp] theorem State.raise_rspData (s : State) (e : ErrorCode) :
    (s.raise e).rspData = [] := rfl

@[simp] theorem State.raise_inReset (s : State) (e : ErrorCode) :
    (s.raise e).inReset = s.inReset := rfl

@[simp] theorem State.raise_primReqs (s : State) (e : ErrorCode) :
    (s.raise e).primReqs = [] := rfl

@[simp] theorem State.raise_pins (s : State) (e : ErrorCode) :
    (s.raise e).pins = s.pins := rfl

@[simp] theorem State.raise_future (s : State) (e : ErrorCode) :
    (s.raise e).future = s.future := rfl

@[simp] theorem State.takeResponse_params (s : State) :
    (s.takeResponse).params = s.params := rfl

@[simp] theorem State.takeResponse_cfg (s : State) :
    (s.takeResponse).cfg = s.cfg := rfl

@[simp] theorem State.takeResponse_kFixed (s : State) :
    (s.takeResponse).kFixed = s.kFixed := rfl

@[simp] theorem State.takeResponse_phase (s : State) :
    (s.takeResponse).phase = .idle := rfl

@[simp] theorem State.takeResponse_rspStatus (s : State) :
    (s.takeResponse).rspStatus = s.rspStatus := rfl

@[simp] theorem State.takeResponse_rspLen (s : State) :
    (s.takeResponse).rspLen = s.rspLen := rfl

@[simp] theorem State.takeResponse_rspData (s : State) :
    (s.takeResponse).rspData = s.rspData := rfl

@[simp] theorem State.takeResponse_inReset (s : State) :
    (s.takeResponse).inReset = s.inReset := rfl

@[simp] theorem State.takeResponse_primReqs (s : State) :
    (s.takeResponse).primReqs = s.primReqs := rfl

@[simp] theorem State.takeResponse_pins (s : State) :
    (s.takeResponse).pins = s.pins := rfl

@[simp] theorem State.takeResponse_future (s : State) :
    (s.takeResponse).future = s.future := rfl

@[simp] theorem State.accept_params (s : State) :
    (s.accept).params = s.params := rfl

@[simp] theorem State.accept_cfg (s : State) :
    (s.accept).cfg = s.cfg := rfl

@[simp] theorem State.accept_kFixed (s : State) :
    (s.accept).kFixed = s.kFixed := rfl

@[simp] theorem State.accept_phase (s : State) :
    (s.accept).phase = .busy s.pins.cmd := rfl

@[simp] theorem State.accept_rspStatus (s : State) :
    (s.accept).rspStatus = s.rspStatus := rfl

@[simp] theorem State.accept_rspLen (s : State) :
    (s.accept).rspLen = s.rspLen := rfl

@[simp] theorem State.accept_rspData (s : State) :
    (s.accept).rspData = s.rspData := rfl

@[simp] theorem State.accept_inReset (s : State) :
    (s.accept).inReset = s.inReset := rfl

@[simp] theorem State.accept_primReqs (s : State) :
    (s.accept).primReqs = s.primReqs := rfl

@[simp] theorem State.accept_pins (s : State) :
    (s.accept).pins = s.pins := rfl

@[simp] theorem State.accept_future (s : State) :
    (s.accept).future = s.future := rfl

@[simp] theorem State.tick_params (s : State) :
    (s.tick).params = s.params := rfl

@[simp] theorem State.tick_cfg (s : State) :
    (s.tick).cfg = s.cfg := rfl

@[simp] theorem State.tick_kFixed (s : State) :
    (s.tick).kFixed = s.kFixed := rfl

@[simp] theorem State.tick_phase (s : State) :
    (s.tick).phase = s.phase := rfl

@[simp] theorem State.tick_rspStatus (s : State) :
    (s.tick).rspStatus = s.rspStatus := rfl

@[simp] theorem State.tick_rspLen (s : State) :
    (s.tick).rspLen = s.rspLen := rfl

@[simp] theorem State.tick_rspData (s : State) :
    (s.tick).rspData = s.rspData := rfl

@[simp] theorem State.tick_inReset (s : State) :
    (s.tick).inReset = s.inReset := rfl

@[simp] theorem State.tick_primReqs (s : State) :
    (s.tick).primReqs = s.primReqs := rfl

@[simp] theorem State.tick_pins (s : State) :
    (s.tick).pins = s.future.headD s.pins := rfl

@[simp] theorem State.tick_future (s : State) :
    (s.tick).future = s.future.tail := rfl

@[simp] theorem State.enterReset_params (s : State) :
    (s.enterReset).params = s.params := rfl

@[simp] theorem State.enterReset_cfg (s : State) :
    (s.enterReset).cfg = s.cfg := rfl

@[simp] theorem State.enterReset_kFixed (s : State) :
    (s.enterReset).kFixed = s.kFixed := rfl

@[simp] theorem State.enterReset_phase (s : State) :
    (s.enterReset).phase = .idle := rfl

@[simp] theorem State.enterReset_rspStatus (s : State) :
    (s.enterReset).rspStatus = 0x00 := rfl

@[simp] theorem State.enterReset_rspLen (s : State) :
    (s.enterReset).rspLen = 0 := rfl

@[simp] theorem State.enterReset_rspData (s : State) :
    (s.enterReset).rspData = [] := rfl

@[simp] theorem State.enterReset_inReset (s : State) :
    (s.enterReset).inReset = true := rfl

@[simp] theorem State.enterReset_primReqs (s : State) :
    (s.enterReset).primReqs = [] := rfl

@[simp] theorem State.enterReset_pins (s : State) :
    (s.enterReset).pins = s.pins := rfl

@[simp] theorem State.enterReset_future (s : State) :
    (s.enterReset).future = s.future := rfl

@[simp] theorem State.leaveReset_params (s : State) :
    (s.leaveReset).params = s.params := rfl

@[simp] theorem State.leaveReset_cfg (s : State) :
    (s.leaveReset).cfg = Cfg.sample s.pins := rfl

@[simp] theorem State.leaveReset_kFixed (s : State) :
    (s.leaveReset).kFixed = s.kFixed := rfl

@[simp] theorem State.leaveReset_phase (s : State) :
    (s.leaveReset).phase = .idle := rfl

@[simp] theorem State.leaveReset_rspStatus (s : State) :
    (s.leaveReset).rspStatus = 0x00 := rfl

@[simp] theorem State.leaveReset_rspLen (s : State) :
    (s.leaveReset).rspLen = 0 := rfl

@[simp] theorem State.leaveReset_rspData (s : State) :
    (s.leaveReset).rspData = [] := rfl

@[simp] theorem State.leaveReset_inReset (s : State) :
    (s.leaveReset).inReset = false := rfl

@[simp] theorem State.leaveReset_primReqs (s : State) :
    (s.leaveReset).primReqs = [] := rfl

@[simp] theorem State.leaveReset_pins (s : State) :
    (s.leaveReset).pins = s.pins := rfl

@[simp] theorem State.leaveReset_future (s : State) :
    (s.leaveReset).future = s.future := rfl

@[simp] theorem State.placeCommand_params (s : State) (c : Command) :
    (s.placeCommand c).params = s.params := rfl

@[simp] theorem State.placeCommand_cfg (s : State) (c : Command) :
    (s.placeCommand c).cfg = s.cfg := rfl

@[simp] theorem State.placeCommand_kFixed (s : State) (c : Command) :
    (s.placeCommand c).kFixed = s.kFixed := rfl

@[simp] theorem State.placeCommand_phase (s : State) (c : Command) :
    (s.placeCommand c).phase = .busy c := rfl

@[simp] theorem State.placeCommand_rspStatus (s : State) (c : Command) :
    (s.placeCommand c).rspStatus = s.rspStatus := rfl

@[simp] theorem State.placeCommand_rspLen (s : State) (c : Command) :
    (s.placeCommand c).rspLen = s.rspLen := rfl

@[simp] theorem State.placeCommand_rspData (s : State) (c : Command) :
    (s.placeCommand c).rspData = s.rspData := rfl

@[simp] theorem State.placeCommand_inReset (s : State) (c : Command) :
    (s.placeCommand c).inReset = false := rfl

@[simp] theorem State.placeCommand_primReqs (s : State) (c : Command) :
    (s.placeCommand c).primReqs = s.primReqs := rfl

@[simp] theorem State.placeCommand_pins (s : State) (c : Command) :
    (s.placeCommand c).pins = { s.pins with rst := false } := rfl

@[simp] theorem State.placeCommand_future (s : State) (c : Command) :
    (s.placeCommand c).future = s.future := rfl

/-- What is read of a state through its parameters and configuration alone. -/
theorem State.operands_of_same {s t : State} (hp : t.params = s.params) (hc : t.cfg = s.cfg) :
    t.cipher = s.cipher ∧ t.digest = s.digest ∧ t.keylen = s.keylen ∧ t.keyBytes = s.keyBytes ∧
      t.outlen = s.outlen ∧ t.seedlen = s.seedlen ∧ t.strength = s.strength ∧ t.keyOK = s.keyOK ∧
      t.wfConfig = s.wfConfig ∧ t.rspCapacity = s.rspCapacity := by
  refine ⟨?_, ?_, ?_, ?_, ?_, ?_, ?_, ?_, ?_, ?_⟩
  · funext key block
    simp only [State.cipher, hp]
  · funext message
    simp only [State.digest, hp]
  · simp only [State.keylen, hc]
  · simp only [State.keyBytes, State.keylen, hc]
  · simp only [State.outlen, hc]
  · simp only [State.seedlen, hc]
  · simp only [State.strength, hc]
  · rw [State.keyOK, State.keyOK, State.keylen, State.keylen, hp, hc]
  · simp only [State.wfConfig, hp, hc]
  · simp only [State.rspCapacity, State.outlen, hp, hc]

end Sys2Proof.Machine
end

