-- ==== Sys2Proof/Laws/Ops.lean ====
section
/-! SUPPORT. What each shared operation can do, said once: completion, the primitives, the actions of a
step and the outcome of `exec`. -/

namespace Sys2Proof.Machine

/-- Every answer of `E` is a block (00_scope.md R7, 60_exceptions.md R224). -/
@[simp] theorem State.cipher_length (s : State) (key block : Bytes) :
    (s.cipher key block).length = s.params.cipher.blockBytes := by
  simp [State.cipher]

/-- Every answer of `H` is a digest (00_scope.md R7, 60_exceptions.md R224). -/
@[simp] theorem State.digest_length (s : State) (message : Bytes) :
    (s.digest message).length = s.params.digest.digestBytes := by
  simp [State.digest]

@[simp] theorem State.complete_ok (s : State) (r : Traced) : s.complete (.ok r) = s.respond r := rfl

@[simp] theorem State.complete_error (s : State) (e : ErrorCode) :
    s.complete (.error e) = s.raise e := rfl

/-- Completion writes the response registers, `PHASE` and the record of requests, and nothing else. -/
theorem State.complete_frame (s : State) (r : Except ErrorCode Traced) :
    SameElsewhere s (s.complete r) := by
  cases r <;> exact ⟨rfl, rfl, rfl, rfl, rfl, rfl⟩

@[simp] theorem State.complete_phase (s : State) (r : Except ErrorCode Traced) :
    (s.complete r).phase = .done := by
  cases r <;> rfl

/-- What the response registers hold after a completion depends on its answer alone. -/
theorem State.complete_response (s t : State) (r : Except ErrorCode Traced) :
    SameResponse (s.complete r) (t.complete r) ∧ (t.complete r).primReqs = (s.complete r).primReqs := by
  cases r <;> exact ⟨⟨rfl, rfl, rfl⟩, rfl⟩

/-- A result short enough for `RSP_LEN` completes the command with it. -/
theorem State.respond_completes (s : State) (r : Traced) (h : r.bytes.length < 2 ^ 32) :
    CompletesWith s (s.respond r) r.bytes r.reqs :=
  ⟨rfl, rfl, by simpa using Nat.mod_eq_of_lt h, rfl, rfl, ⟨rfl, rfl, rfl, rfl, rfl, rfl⟩⟩

/-- An error completes the command with its code and no output. -/
theorem State.raise_fails (s : State) (e : ErrorCode) : FailsWith s (s.raise e) e.code :=
  ⟨rfl, rfl, rfl, rfl, rfl, ⟨rfl, rfl, rfl, rfl, rfl, rfl⟩⟩

/-- The answer of an instruction: its checks and its algorithm, before completion writes it. -/
def answerOf (i : Instr) (s : State) : Except ErrorCode Traced :=
  match i with
  | .encU32 value => .ok ⟨encodeUint32 value.toNat, []⟩
  | .inc buffer => .ok ⟨incrementModPow2 buffer, []⟩
  | .bcc data key => s.bccAnswer data key
  | .ctrDf nbits seed => s.ctrDfCommand seed nbits.toNat
  | .hashgen nbits stateValue => s.hashgenCommand stateValue nbits.toNat
  | .dfSeedlen => .ok ⟨encodeUint32 s.seedlen, []⟩
  | .dfStrength => .ok ⟨encodeUint32 s.strength, []⟩
  | .dfDerive seed => s.deriveAnswer seed
  | .dfGenerate nbits stateValue => s.generateAnswer stateValue nbits.toNat

/-- Every instruction completes with its answer. -/
theorem exec_eq (i : Instr) (s : State) : exec i s = .next (s.complete (answerOf i s)) := by
  cases i <;> rfl

/-- `cmd_ready` is 1 exactly when `PHASE = IDLE` and reset is not asserted (30_encoding.md R84). -/
theorem State.cmdReady_iff (s : State) :
    s.cmdReady = true ↔ s.phase = .idle ∧ s.pins.rst = false := by
  simp [State.cmdReady, State.resetAsserted]

/-- `rsp_valid` is 1 exactly when `PHASE = DONE` and `rst` is 0 (30_encoding.md R84,
70_reset_and_hazards.md R240). -/
theorem State.rspValid_iff (s : State) :
    s.rspValid = true ↔ s.phase = .done ∧ s.pins.rst = false := by
  simp [State.rspValid, State.resetAsserted]

/-- All the step from IDLE can do: it accepts the command that is presented to a ready engine, or the
ports move on and nothing else happens. -/
theorem State.idleStep_cases (s : State) :
    (s.pins.cmdValid = true ∧ s.cmdReady = true ∧ s.idleStep = s.accept.tick) ∨
    ((s.pins.cmdValid = false ∨ s.cmdReady = false) ∧ s.idleStep = s.tick) := by
  unfold State.idleStep State.cmdTransfer
  cases s.pins.cmdValid <;> cases s.cmdReady <;> simp

/-! What the step from IDLE leaves: everything but `PHASE` and the ports. -/

@[simp] theorem State.idleStep_params (s : State) : (s.idleStep).params = s.params := by
  unfold State.idleStep; split <;> rfl

@[simp] theorem State.idleStep_cfg (s : State) : (s.idleStep).cfg = s.cfg := by
  unfold State.idleStep; split <;> rfl

@[simp] theorem State.idleStep_kFixed (s : State) : (s.idleStep).kFixed = s.kFixed := by
  unfold State.idleStep; split <;> rfl

@[simp] theorem State.idleStep_rspStatus (s : State) : (s.idleStep).rspStatus = s.rspStatus := by
  unfold State.idleStep; split <;> rfl

@[simp] theorem State.idleStep_rspLen (s : State) : (s.idleStep).rspLen = s.rspLen := by
  unfold State.idleStep; split <;> rfl

@[simp] theorem State.idleStep_rspData (s : State) : (s.idleStep).rspData = s.rspData := by
  unfold State.idleStep; split <;> rfl

@[simp] theorem State.idleStep_inReset (s : State) : (s.idleStep).inReset = s.inReset := by
  unfold State.idleStep; split <;> rfl

@[simp] theorem State.idleStep_primReqs (s : State) : (s.idleStep).primReqs = s.primReqs := by
  unfold State.idleStep; split <;> rfl

/-! What the step from DONE leaves: everything but `PHASE` and the ports. -/

@[simp] theorem State.doneStep_params (s : State) : (s.doneStep).params = s.params := by
  unfold State.doneStep; split <;> rfl

@[simp] theorem State.doneStep_cfg (s : State) : (s.doneStep).cfg = s.cfg := by
  unfold State.doneStep; split <;> rfl

@[simp] theorem State.doneStep_kFixed (s : State) : (s.doneStep).kFixed = s.kFixed := by
  unfold State.doneStep; split <;> rfl

@[simp] theorem State.doneStep_rspStatus (s : State) : (s.doneStep).rspStatus = s.rspStatus := by
  unfold State.doneStep; split <;> rfl

@[simp] theorem State.doneStep_rspLen (s : State) : (s.doneStep).rspLen = s.rspLen := by
  unfold State.doneStep; split <;> rfl

@[simp] theorem State.doneStep_rspData (s : State) : (s.doneStep).rspData = s.rspData := by
  unfold State.doneStep; split <;> rfl

@[simp] theorem State.doneStep_inReset (s : State) : (s.doneStep).inReset = s.inReset := by
  unfold State.doneStep; split <;> rfl

@[simp] theorem State.doneStep_primReqs (s : State) : (s.doneStep).primReqs = s.primReqs := by
  unfold State.doneStep; split <;> rfl

/-- A running engine's step by phase. -/
theorem step_running {s : State} (h : s.running = true) :
    step s = match s.phase with
      | .idle => .next s.idleStep
      | .busy c =>
        match decodeCommand s.params.maxOperandBytes c with
        | .ok i => exec i s.tick
        | .error r => .next (s.tick.raise r.errorCode)
      | .done => .next s.doneStep := by
  simp only [State.running, Bool.and_eq_true, Bool.not_eq_true'] at h
  obtain ⟨⟨hr, hi⟩, hw⟩ := h
  simp only [step, State.action, hr, hi, hw, Bool.false_eq_true, if_true, if_false]
  cases s.phase with
  | idle => rfl
  | busy c =>
    simp only [State.runAccepted]
    cases decodeCommand s.params.maxOperandBytes c <;> rfl
  | done => rfl

/-- Everything a step with a next state can be: reset, the fall of reset with what it accepts, a held or moved hand-over,
or the completion of a command with some answer. -/
theorem step_next_cases {s t : State} (h : step s = .next t) :
    (s.pins.rst = true ∧ t = s.enterReset.tick) ∨
    (s.pins.rst = false ∧ s.inReset = true ∧ s.leaveReset.wfConfig = true ∧
      t = s.leaveReset.idleStep) ∨
    (s.running = true ∧
      ((s.phase = .idle ∧ t = s.idleStep) ∨
       (s.phase = .done ∧ t = s.doneStep) ∨
       ∃ c, s.phase = .busy c ∧
        ((∃ i, decodeCommand s.params.maxOperandBytes c = .ok i ∧
            t = s.tick.complete (answerOf i s.tick)) ∨
         ∃ r, decodeCommand s.params.maxOperandBytes c = .error r ∧
            t = s.tick.raise r.errorCode))) := by
  by_cases hr : s.pins.rst = true
  · simp only [step, State.action, hr, if_true, Host.Outcome.next.injEq] at h
    exact .inl ⟨hr, h.symm⟩
  simp only [Bool.not_eq_true] at hr
  by_cases hi : s.inReset = true
  · simp only [step, State.action, hr, hi, Bool.false_eq_true, if_true, if_false,
      State.fallOfReset] at h
    split at h
    next hw => exact .inr (.inl ⟨hr, hi, hw, by simpa using h.symm⟩)
    next => cases h
  simp only [Bool.not_eq_true] at hi
  by_cases hw : s.wfConfig = true
  · have hrun : s.running = true := by simp [State.running, hr, hi, hw]
    refine .inr (.inr ⟨hrun, ?_⟩)
    rw [step_running hrun] at h
    cases hp : s.phase with
    | idle =>
      simp only [hp, Host.Outcome.next.injEq] at h
      exact .inl ⟨rfl, h.symm⟩
    | done =>
      simp only [hp, Host.Outcome.next.injEq] at h
      exact .inr (.inl ⟨rfl, h.symm⟩)
    | busy c =>
      simp only [hp] at h
      refine .inr (.inr ⟨c, rfl, ?_⟩)
      cases hd : decodeCommand s.params.maxOperandBytes c with
      | ok i =>
        simp only [hd, exec_eq, Host.Outcome.next.injEq] at h
        exact .inl ⟨i, rfl, h.symm⟩
      | error r =>
        simp only [hd, Host.Outcome.next.injEq] at h
        exact .inr ⟨r, rfl, h.symm⟩
  · simp only [Bool.not_eq_true] at hw
    simp [step, State.action, hr, hi, hw] at h

end Sys2Proof.Machine
end

