-- ==== Sys2Proof/Laws/Answers.lean ====
section
/-! SUPPORT. What each command's answer can be: if its checks pass, the conditions they stand for and
the result. Also what a well-formed configuration gives (00_scope.md R10). -/

namespace Sys2Proof.Machine

/-- A well-formed configuration of the CTR-DF variant: `OUTLEN` is the block size, at least 4, and
operands are shorter than `2^32`. -/
theorem State.wfConfig_cipher {s : State} (hw : s.wfConfig = true) (hp : s.cfg.prim = .cipher) :
    s.params.cipher.blockBytes = s.outlen ∧ 4 ≤ s.outlen ∧ s.params.maxOperandBytes < 2 ^ 32 := by
  simp only [State.wfConfig, wfCfg, hp, Bool.and_eq_true, decide_eq_true_eq] at hw
  obtain ⟨⟨hb, ho⟩, hm⟩ := hw
  exact ⟨hb.symm, ho, by omega⟩

/-- A well-formed configuration of the HashGen variant: `OUTLEN` is the digest size, at least 1, and
operands are shorter than `2^32`. -/
theorem State.wfConfig_digest {s : State} (hw : s.wfConfig = true) (hp : s.cfg.prim = .digest) :
    s.params.digest.digestBytes = s.outlen ∧ 1 ≤ s.outlen ∧ s.params.maxOperandBytes < 2 ^ 32 := by
  simp only [State.wfConfig, wfCfg, hp, Bool.and_eq_true, decide_eq_true_eq] at hw
  obtain ⟨⟨hb, ho⟩, hm⟩ := hw
  exact ⟨hb.symm, ho, by omega⟩

theorem ctrDfCheck_ok {maxBits nbits : Nat} (h : ctrDfCheck maxBits nbits = .ok ()) :
    nbits ≠ 0 ∧ nbits % 8 = 0 ∧ nbits ≤ maxBits := by
  unfold ctrDfCheck at h
  split at h
  · cases h
  split at h
  · cases h
  omega

theorem hashgenCheck_ok {maxBits nbits : Nat} (h : hashgenCheck maxBits nbits = .ok ()) :
    nbits % 8 = 0 ∧ nbits ≤ maxBits := by
  unfold hashgenCheck at h
  split at h
  · cases h
  split at h
  · cases h
  omega

theorem State.bccAnswer_ok {s : State} {data key : Bytes} {r : Traced}
    (h : s.bccAnswer data key = .ok r) :
    s.cfg.prim = .cipher ∧ s.keyOK = true ∧ key.length = s.keyBytes ∧ data.length ≠ 0 ∧
      data.length % s.outlen = 0 ∧ r = bcc s.cipher s.outlen key data := by
  unfold State.bccAnswer at h
  split at h
  · cases h
  split at h
  · cases h
  split at h
  · cases h
  split at h
  · cases h
  simp_all

theorem State.ctrDfAnswer_ok {s : State} {seed : Bytes} {nbits : Nat} {r : Traced}
    (h : s.ctrDfAnswer seed nbits = .ok r) :
    nbits ≠ 0 ∧ nbits % 8 = 0 ∧ nbits ≤ s.params.maxDfBits ∧
      r = ctrDf s.cipher s.outlen s.keyBytes s.chainingKey seed nbits := by
  unfold State.ctrDfAnswer at h
  split at h
  · cases h
  next hc =>
    obtain ⟨h0, h8, hm⟩ := ctrDfCheck_ok hc
    exact ⟨h0, h8, hm, (Except.ok.inj h).symm⟩

theorem State.hashgenAnswer_ok {s : State} {v : Bytes} {nbits : Nat} {r : Traced}
    (h : s.hashgenAnswer v nbits = .ok r) :
    nbits % 8 = 0 ∧ nbits ≤ s.params.maxHashgenBits ∧ r = hashgen s.digest s.outlen v nbits := by
  unfold State.hashgenAnswer at h
  split at h
  · cases h
  next hc =>
    obtain ⟨h8, hm⟩ := hashgenCheck_ok hc
    exact ⟨h8, hm, (Except.ok.inj h).symm⟩

theorem State.ctrDfCommand_ok {s : State} {seed : Bytes} {nbits : Nat} {r : Traced}
    (h : s.ctrDfCommand seed nbits = .ok r) :
    s.cfg.prim = .cipher ∧ s.keyOK = true ∧ s.ctrDfAnswer seed nbits = .ok r := by
  unfold State.ctrDfCommand at h
  split at h
  · cases h
  split at h
  · cases h
  simp_all

theorem State.hashgenCommand_ok {s : State} {v : Bytes} {nbits : Nat} {r : Traced}
    (h : s.hashgenCommand v nbits = .ok r) :
    s.cfg.prim = .digest ∧ s.hashgenAnswer v nbits = .ok r := by
  unfold State.hashgenCommand at h
  split at h
  · cases h
  simp_all

theorem State.deriveAnswer_ok {s : State} {seed : Bytes} {r : Traced}
    (h : s.deriveAnswer seed = .ok r) :
    s.cfg.prim = .cipher ∧ s.keyOK = true ∧ s.ctrDfAnswer seed s.seedlen = .ok r := by
  unfold State.deriveAnswer at h
  split at h
  · cases h
  next hp =>
    split at h
    · cases h
    simp_all

theorem State.generateAnswer_ok {s : State} {v : Bytes} {nbits : Nat} {r : Traced}
    (h : s.generateAnswer v nbits = .ok r) :
    s.cfg.prim = .digest ∧ s.hashgenAnswer v nbits = .ok r := by
  unfold State.generateAnswer at h
  split at h
  · cases h
  next hp => exact ⟨hp, h⟩

end Sys2Proof.Machine
end

