-- ==== Sys2Proof/Laws/ByteString.lean ====
section
/-! SUPPORT. Laws of byte strings and of their big-endian reading (00_scope.md R11, R12). -/

namespace Sys2Proof.Machine

@[simp] theorem zeros_length (n : Nat) : (zeros n).length = n := by simp [zeros]

@[simp] theorem zeros_zero : zeros 0 = [] := rfl

theorem xorBytes_length {s t : Bytes} (h : s.length = t.length) :
    (xorBytes s t).length = s.length := by simp [xorBytes, h]

/-- The chaining value zero leaves a block as it is: `xor(zeros, D) = D`. -/
theorem xorBytes_zeros (d : Bytes) : xorBytes (zeros d.length) d = d := by
  induction d with
  | nil => rfl
  | cons b d ih =>
    simpa [xorBytes, zeros, List.replicate_succ] using ih

@[simp] theorem bytesBE_length (v n : Nat) : (bytesBE v n).length = n := by
  induction n with
  | zero => rfl
  | succ n ih => simp [bytesBE, ih]

@[simp] theorem intBE_nil : intBE [] = 0 := rfl

/-- The most significant byte weighs `256` to the number of bytes after it. -/
theorem intBE_cons (b : Byte) (s : Bytes) :
    intBE (b :: s) = b.toNat * 2 ^ (8 * s.length) + intBE s := by
  have h : ∀ (s : Bytes) (a : Nat), s.foldl (fun acc b => acc * 256 + b.toNat) a =
      a * 2 ^ (8 * s.length) + s.foldl (fun acc b => acc * 256 + b.toNat) 0 := by
    intro s
    induction s with
    | nil => simp
    | cons c s ih =>
      intro a
      rw [List.foldl_cons, List.foldl_cons, ih, ih (0 * 256 + c.toNat), List.length_cons,
        Nat.mul_add 8, Nat.pow_add]
      ring
  simpa [intBE] using h s b.toNat

theorem intBE_lt (s : Bytes) : intBE s < 2 ^ (8 * s.length) := by
  induction s with
  | nil => simp
  | cons b s ih =>
    rw [intBE_cons, List.length_cons, Nat.mul_add, Nat.pow_add]
    have hb : b.toNat + 1 ≤ 2 ^ (8 * 1) := b.isLt
    have := Nat.mul_le_mul_right (2 ^ (8 * s.length)) hb
    linarith [Nat.mul_comm (2 ^ (8 * 1)) (2 ^ (8 * s.length)), Nat.succ_mul b.toNat (2 ^ (8 * s.length))]

theorem intBE_append (s t : Bytes) :
    intBE (s ++ t) = intBE s * 2 ^ (8 * t.length) + intBE t := by
  induction s with
  | nil => simp
  | cons b s ih =>
    rw [List.cons_append, intBE_cons, ih, intBE_cons, List.length_append, Nat.mul_add, Nat.pow_add]
    ring

/-- Writing a number as `n` bytes drops what does not fit in them. -/
theorem bytesBE_mod (v m n : Nat) (h : n ≤ m) : bytesBE (v % 2 ^ (8 * m)) n = bytesBE v n := by
  induction n with
  | zero => rfl
  | succ n ih =>
    have hd : 2 ^ (8 * m) = 2 ^ (8 * n) * (2 ^ 8 * 2 ^ (8 * (m - (n + 1)))) := by
      rw [← Nat.pow_add, ← Nat.pow_add]
      congr 1
      omega
    have hbyte : BitVec.ofNat 8 (v % 2 ^ (8 * m) / 2 ^ (8 * n)) = BitVec.ofNat 8 (v / 2 ^ (8 * n)) := by
      rw [hd, Nat.mod_mul_right_div_self]
      apply BitVec.eq_of_toNat_eq
      simp only [BitVec.toNat_ofNat]
      exact Nat.mod_mul_right_mod _ _ _
    rw [bytesBE, bytesBE, ih (by omega), hbyte]

@[simp] theorem encodeUint32_length (v : Nat) : (encodeUint32 v).length = 4 := by
  simp [encodeUint32]

@[simp] theorem incrementModPow2_length (b : Bytes) : (incrementModPow2 b).length = b.length := by
  unfold incrementModPow2
  split
  · simp_all
  · simp

/-- The first pieces of a byte string are blocks of full length, while it is long enough. -/
theorem pieces_length_of_mem {w n : Nat} {s : Bytes} (h : n * w ≤ s.length) :
    ∀ B ∈ pieces w n s, B.length = w := by
  induction n generalizing s with
  | zero => simp [pieces]
  | succ n ih =>
    intro B hB
    rw [Nat.succ_mul] at h
    simp only [pieces, List.mem_cons] at hB
    rcases hB with rfl | hB
    · simp; omega
    · exact ih (by simp; omega) B hB

@[simp] theorem pieces_length (w n : Nat) (s : Bytes) : (pieces w n s).length = n := by
  induction n generalizing s with
  | zero => rfl
  | succ n ih => simp [pieces, ih]

@[simp] theorem blocks_length (s : Bytes) (w : Nat) : (blocks s w).length = s.length / w := by
  simp [blocks]

theorem blocks_length_of_mem (s : Bytes) (w : Nat) : ∀ B ∈ blocks s w, B.length = w :=
  pieces_length_of_mem (Nat.div_mul_le_self _ _)

end Sys2Proof.Machine
end

