-- ==== Sys2Proof/Laws/PerInstr.lean ====
section
/-! SUPPORT. A law of every instruction as syntax: the fields of its command word are its opcode, zero
and its scalar (30_encoding.md R71, R73). -/

namespace Sys2Proof.Laws

open Sys2Proof

/-- The fields of a packed word are the fields it was packed from. -/
theorem packWord_fields (v : BitVec 32) (r : BitVec 24) (o : BitVec 8) :
    opcField (packWord v r o) = o ∧ rsvField (packWord v r o) = r ∧
      scalarField (packWord v r o) = v := by
  refine ⟨?_, ?_, ?_⟩ <;> ext k hk <;>
    simp only [packWord, opcField, rsvField, scalarField, BitVec.getElem_extractLsb',
      BitVec.getLsbD_or, BitVec.getLsbD_shiftLeft, BitVec.getLsbD_setWidth]
  · simp [show k < 32 by omega, show k < 64 by omega, hk]
  · simp [show 8 + k < 32 by omega, show 8 + k < 64 by omega, show k < 64 by omega, hk]
  · simp [show 32 + k < 64 by omega, BitVec.getLsbD_of_ge o (32 + k) (by omega),
      BitVec.getLsbD_of_ge r (32 + k - 8) (by omega), show k < 64 by omega, hk]

/-- The three fields of the word of an instruction's command (R71). -/
def EncodeWord.Statement (i : Instr) : Prop :=
  opcField (encode i).word = i.opcode.code ∧ rsvField (encode i).word = 0 ∧
    scalarField (encode i).word = i.scalar

theorem EncodeWord.encU32 (value : BitVec 32) : EncodeWord.Statement (.encU32 value) :=
  packWord_fields _ _ _

theorem EncodeWord.inc (buffer : Bytes) : EncodeWord.Statement (.inc buffer) :=
  packWord_fields _ _ _

theorem EncodeWord.bcc (data key : Bytes) : EncodeWord.Statement (.bcc data key) :=
  packWord_fields _ _ _

theorem EncodeWord.ctrDf (nbits : BitVec 32) (seed : Bytes) :
    EncodeWord.Statement (.ctrDf nbits seed) :=
  packWord_fields _ _ _

theorem EncodeWord.hashgen (nbits : BitVec 32) (stateValue : Bytes) :
    EncodeWord.Statement (.hashgen nbits stateValue) :=
  packWord_fields _ _ _

theorem EncodeWord.dfSeedlen : EncodeWord.Statement .dfSeedlen := packWord_fields _ _ _

theorem EncodeWord.dfStrength : EncodeWord.Statement .dfStrength := packWord_fields _ _ _

theorem EncodeWord.dfDerive (seed : Bytes) : EncodeWord.Statement (.dfDerive seed) :=
  packWord_fields _ _ _

theorem EncodeWord.dfGenerate (nbits : BitVec 32) (stateValue : Bytes) :
    EncodeWord.Statement (.dfGenerate nbits stateValue) :=
  packWord_fields _ _ _

end Sys2Proof.Laws
end

