-- ==== Sys2Proof/Tests/Slice0.lean ====
section
/-! SUPPORT. The model's own tests. Expected results are those of 95_test_vectors.md (the vector is
named in each comment), or the spec's own examples; none is the model's answer. The last part gives,
for each statement that has hypotheses, a state and operands that meet them. -/

namespace Sys2Proof.Tests

open Sys2Proof Sys2Proof.Machine

/-! ### Configurations of 95_test_vectors.md section 2 -/

/-- TC: the toy cipher `E_T`, 8-byte keys, 4-byte blocks, just out of reset. -/
def tc : State :=
  { State.reset with
    params := { Config.resetParams with
      cipher := { id := .testET, blockBytes := 4 }
      digest := { id := .testHT, digestBytes := 2 } } }

/-- TD: the toy digest `H_T`, 2-byte digests, just out of reset. -/
def td : State :=
  { tc with
    cfg := { prim := .digest, keylenBits := 0, outlenBytes := 2, seedlenBits := 40, strengthBits := 16 } }

/-- TC4: TC with `MAX_OPERAND_BYTES = 4`. -/
def tc4 : State := { tc with params := { tc.params with maxOperandBytes := 4 } }

/-- The key of section 3.3. -/
def key : Bytes := [0x00, 0x01, 0x02, 0x03, 0x04, 0x05, 0x06, 0x07]

/-- The engine with a command accepted. -/
def busyWith (s : State) (w : BitVec 64) (a b : Bytes) : State := s.placeCommand ⟨w, a, b⟩

/-- Status, result and number of primitive calls of a completed command. -/
def response (o : Host.Outcome State Fault Refusal) : Option (BitVec 8 × Bytes × Nat) :=
  match o with
  | .next t => some (t.rspStatus, t.rspData, t.primReqs.length)
  | .fault _ => none
  | .refused _ => none

/-! ### Well-formedness: each check refuses an ill-formed term -/

theorem test_wellFormed_accepts : (Instr.bcc [1, 2] [3]).wellFormed 2 = true := by decide

theorem test_opaFits_refuses : (Instr.ctrDf 8 [1, 2, 3, 4, 5]).opaFits 4 = false := by decide

theorem test_opbFits_refuses : (Instr.bcc [] [1, 2, 3, 4, 5]).opbFits 4 = false := by decide

theorem test_wellFormed_refuses : (Instr.bcc [] [1, 2, 3, 4, 5]).wellFormed 4 = false := by decide

/-! ### Decoding: words written out from the patterns of 40_counter.md to 44_df_contract.md -/

theorem test_decode_encU32 : decodeTableWord 64
    0b0000000100000010000000110000010000000000000000000000000000000001 =
      some (.encU32 0x01020304) := by decide

theorem test_decode_inc : decodeCommand 4
    ⟨0b0000000000000000000000000000000000000000000000000000000000000010, [0x12, 0xFF], []⟩ =
      .ok (.inc [0x12, 0xFF]) := by rfl

theorem test_decode_bcc : decodeCommand 8
    ⟨0b0000000000000000000000000000000000000000000000000000000000000011, [1, 2, 3, 4], key⟩ =
      .ok (.bcc [1, 2, 3, 4] key) := by rfl

theorem test_decode_ctrDf : decodeCommand 4
    ⟨0b0000000000000000000000000110000000000000000000000000000000000100, [0xAA], []⟩ =
      .ok (.ctrDf 96 [0xAA]) := by rfl

theorem test_decode_hashgen : decodeCommand 4
    ⟨0b0000000000000000000000000010100000000000000000000000000000000101, [0x00, 0xFF], []⟩ =
      .ok (.hashgen 40 [0x00, 0xFF]) := by rfl

theorem test_decode_dfSeedlen : decodeTableWord 64
    0b0000000000000000000000000000000000000000000000000000000000000110 = some .dfSeedlen := by decide

theorem test_decode_dfStrength : decodeTableWord 64
    0b0000000000000000000000000000000000000000000000000000000000000111 = some .dfStrength := by decide

theorem test_decode_dfDerive : decodeCommand 4
    ⟨0b0000000000000000000000000000000000000000000000000000000000001000, [0xAA], []⟩ =
      .ok (.dfDerive [0xAA]) := by rfl

theorem test_decode_dfGenerate : decodeCommand 4
    ⟨0b0000000000000000000000000010100000000000000000000000000000001001, [0x00, 0xFF], []⟩ =
      .ok (.dfGenerate 40 [0x00, 0xFF]) := by rfl

/-- V-DEC-1, V-DEC-2, V-DEC-3. -/
theorem test_decode_reserved_opcodes :
    decodeTableWord 64 0x0000000000000000 = none ∧ decodeTableWord 64 0x000000000000000A = none ∧
      decodeTableWord 64 0x00000000000000FF = none := by decide

/-- V-DEC-4, V-DEC-5: each end of `RSV`. -/
theorem test_decode_reserved_bits :
    decodeCommand 4 ⟨0x0000000000000104, [0xAA], []⟩ = .error .reservedBits ∧
      decodeCommand 4 ⟨0x0000000880000004, [0xAA], []⟩ = .error .reservedBits := ⟨rfl, rfl⟩

/-- V-ENC-6, V-INC-9, V-CTR-15: an unused field in use. -/
theorem test_decode_unused_fields :
    decodeCommand 4 ⟨0x0000000500000001, [0x00], []⟩ = .error .unusedOperandA ∧
      decodeCommand 4 ⟨0x0000000100000002, [0x00], []⟩ = .error .unusedScalar ∧
      decodeCommand 4 ⟨0x0000000800000004, [0xAA], [0x00]⟩ = .error .unusedOperandB :=
  ⟨rfl, rfl, rfl⟩

/-- The word of V-ENC-2 as bytes, byte 0 the most significant (30_encoding.md R81). -/
theorem test_word_bytes : wordToBytes 0x0102030400000001 = [1, 2, 3, 4, 0, 0, 0, 1] := by decide

/-- The scalar of the encoder stands above the opcode (V-CTR-2's word). -/
theorem test_encode_ctrDf : encode (.ctrDf 96 [0xAA]) = ⟨0x0000006000000004, [0xAA], []⟩ := by decide

/-! ### Instructions: one step on configuration TC or TD -/

/-- V-ENC-2. -/
theorem test_encU32_example :
    response (exec (.encU32 0x01020304) tc) = some (0x00, [0x01, 0x02, 0x03, 0x04], 0) := by decide

/-- V-INC-7: the carry stops at the first byte from the right that is not 0xFF. -/
theorem test_inc_carry_stops :
    response (exec (.inc [0x00, 0xFF, 0x00, 0xFF]) tc) =
      some (0x00, [0x00, 0xFF, 0x01, 0x00], 0) := by decide

/-- V-INC-5: all 0xFF wraps to zero in the same length. -/
theorem test_inc_wraps :
    response (exec (.inc [0xFF, 0xFF, 0xFF, 0xFF]) tc) = some (0x00, [0, 0, 0, 0], 0) := by decide

/-- V-BCC-2: two blocks, so the second is chained to the first. -/
theorem test_bcc_two_blocks :
    response (exec (.bcc [0x11, 0x22, 0x33, 0x44, 0x55, 0x66, 0x77, 0x88] key) tc) =
      some (0x00, [0x44, 0x54, 0x48, 0xCC], 2) := by decide

/-- V-BCC-4: 6 bytes are no multiple of the block. -/
theorem test_bcc_partial_block :
    response (exec (.bcc [0x11, 0x22, 0x33, 0x44, 0x55, 0x66] key) tc) = some (0x01, [], 0) := by
  decide

/-- V-CTR-2, with its 15 calls of the cipher. -/
theorem test_ctrDf_twelve_bytes :
    response (exec (.ctrDf 96 [0xAA]) tc) =
      some (0x00, [0xAA, 0x98, 0x20, 0x54, 0xAA, 0x98, 0x20, 0x8D, 0xAA, 0x98, 0x20, 0xB4], 15) := by
  decide

/-- V-CTR-13: alignment is checked before the maximum. -/
theorem test_ctrDf_alignment_first :
    response (exec (.ctrDf 524292 [0xAA]) tc) = some (0x02, [], 0) := by decide

/-- V-HG-1: three digests of a counter, cut to 5 bytes. -/
theorem test_hashgen_five_bytes :
    response (exec (.hashgen 40 [0x00, 0xFF]) td) =
      some (0x00, [0x02, 0xFE, 0x02, 0x01, 0x02], 3) := by decide

/-- V-HG-8: 0 bits are an empty result, with no call of the digest. -/
theorem test_hashgen_no_bits : response (exec (.hashgen 0 [0x00, 0xFF]) td) = some (0x00, [], 0) := by
  decide

/-- V-DF-12. -/
theorem test_dfSeedlen : response (exec .dfSeedlen tc) = some (0x00, [0, 0, 0, 0x60], 0) := by decide

/-- V-DF-13. -/
theorem test_dfStrength : response (exec .dfStrength tc) = some (0x00, [0, 0, 0, 0x40], 0) := by decide

/-- V-DF-1: DF_DERIVE is CTR_DF at the configured seed length. -/
theorem test_dfDerive :
    response (exec (.dfDerive [0xAA]) tc) =
      some (0x00, [0xAA, 0x98, 0x20, 0x54, 0xAA, 0x98, 0x20, 0x8D, 0xAA, 0x98, 0x20, 0xB4], 15) := by
  decide

/-- V-DF-6: there is no derivation on the digest variant. -/
theorem test_dfDerive_on_digest : response (exec (.dfDerive [0xAA]) td) = some (0x06, [], 0) := by decide

/-- Program P2, step 2. -/
theorem test_dfGenerate :
    response (exec (.dfGenerate 48 [0x00, 0x00, 0x00, 0xFF]) td) =
      some (0x00, [0x04, 0xFC, 0x04, 0x03, 0x04, 0x07], 3) := by decide

/-- V-DF-7: there is no generate step on the cipher variant. -/
theorem test_dfGenerate_on_cipher : response (exec (.dfGenerate 8 [0x00]) tc) = some (0x06, [], 0) := by
  decide

/-! ### Steps -/

/-- V-DEC-6: the operand limit is checked before the variant. -/
theorem test_step_operand_limit_first :
    response (step (busyWith { tc4 with cfg := td.cfg } 0x0000000800000004 [1, 2, 3, 4, 5] [])) =
      some (0x03, [], 0) := by decide

/-- V-CTR-17: a 264-bit key is unsupported, reported before the alignment of the length. -/
theorem test_step_key_size_first :
    response (step (busyWith { tc with
        params := { tc.params with cipherKeySizes := [64, 264] }
        cfg := { tc.cfg with keylenBits := 264 } } 0x0000000C00000004 [0xAA] [])) =
      some (0x04, [], 0) := by decide

/-- The first word after reset is run (V-ENC-2), and an idle engine without a command stays idle. -/
theorem test_first_word_after_reset :
    response (step (State.reset.withFetchWord 64 0x0102030400000001)) =
      some (0x00, [1, 2, 3, 4], 0) ∧ step State.reset = .next State.reset := ⟨by decide, rfl⟩

/-- A word of each row runs as the first command after reset, whatever the primitives are: the step
has a next state. -/
theorem test_every_row_runs_after_reset :
    ([0x0102030400000001, 0x02, 0x03, 0x0000006000000004, 0x0000002800000005, 0x06, 0x07, 0x08,
        0x0000002800000009].all fun w =>
      (response (step (State.reset.withFetchWord 64 w))).isSome) = true := by decide

/-- `rst` during a command: the command is abandoned (70_reset_and_hazards.md R250). -/
theorem test_reset_abandons :
    ((busyWith tc 0x0102030400000001 [] []).enterReset).phase = .idle := by decide

/-- A command presented in the step in which `rst` falls is accepted in it (30_encoding.md R84). -/
theorem test_fall_accepts :
    step { tc with inReset := true, pins := { tc.pins with cmdValid := true } } =
      .next { tc with phase := .busy tc.pins.cmd, pins := { tc.pins with cmdValid := true } } := by rfl

/-- At the fall of `rst` an `OUTLEN` of 3 for a 4-byte cipher is refused (60_exceptions.md R226). -/
theorem test_ill_formed_refused :
    step { tc with inReset := true, pins := { tc.pins with cfgOutlenBytes := 3 } } =
      .refused .illFormedConfig := by rfl

/-! ### The assembler: lines of 30_encoding.md R82 -/

/-- V-CTR-2's line. -/
theorem test_assemble_ctrDf :
    assembleLine [] ['C', 'T', 'R', '_', 'D', 'F', ' ', '9', '6', ',', ' ', 'A', '=', 'A', 'A'] =
      some (none, ⟨0x0000006000000004, [0xAA], []⟩) := by decide

/-- A hexadecimal value, kept under a name (program P2, step 1). -/
theorem test_assemble_binding :
    assembleLine [] ['$', 'v', ' ', '<', '-', ' ', 'E', 'N', 'C', '_', 'U', '3', '2', ' ',
        '0', 'x', 'F', 'F'] =
      some (some ['v'], ⟨0x000000FF00000001, [], []⟩) := by decide

/-! ### The hypotheses of the statements can be met -/

/-- TC with `CFG_SEEDLEN_BITS` as given. -/
def tcSeed (n : BitVec 32) : State := { tc with cfg := { tc.cfg with seedlenBits := n } }

/-- TC whose key size is not supported (V-CTR-16). -/
def tcBadKey : State := { tc with cfg := { tc.cfg with keylenBits := 72 } }

/-- An engine whose `rst` has just fallen, with the given levels of its configuration inputs. -/
def falling (prim : BitVec 1) (outlen : BitVec 16) : State :=
  { tc with
    inReset := true
    pins := { tc.pins with cfgPrim := prim, cfgOutlenBytes := outlen } }

/-- An engine to which a command is presented. -/
def presented (s : State) : State := { s with pins := { s.pins with cmdValid := true } }

theorem witness_DecodeOfEncode :
    (Instr.bcc [1, 2] [3]).wellFormed 2 = true ∧ (Instr.inc [1, 2]).wellFormed 2 = true := by decide

theorem witness_EncodeOfDecode : decodeCommand 4 (encode (.inc [1, 2, 3, 4])) = .ok (.inc [1, 2, 3, 4]) :=
  rfl

/-- Commands at the edges of the three checks: each of them passes or fails as its place says. -/
theorem witness_DecodeIsTotal_first :
    ¬FirstCheckPasses ⟨0x00, [], []⟩ ∧ ¬FirstCheckPasses ⟨0x0A, [], []⟩ ∧
      ¬FirstCheckPasses ⟨0x0000000080000001, [], []⟩ ∧ FirstCheckPasses ⟨0x09, [1], [1]⟩ := by
  unfold FirstCheckPasses
  decide

theorem witness_DecodeIsTotal_second :
    ¬SecondCheckPasses ⟨0x09, [1], [1]⟩ ∧ ¬SecondCheckPasses ⟨0x0000000100000002, [], []⟩ ∧
      ¬SecondCheckPasses ⟨0x06, [1], []⟩ := by
  unfold SecondCheckPasses
  decide

theorem witness_DecodeIsTotal :
    FirstCheckPasses ⟨0x03, [1, 2], [1, 2]⟩ ∧ SecondCheckPasses ⟨0x03, [1, 2], [1, 2]⟩ ∧
      ThirdCheckPasses 2 ⟨0x03, [1, 2], [1, 2]⟩ ∧ ¬ThirdCheckPasses 1 ⟨0x03, [1, 2], [1]⟩ ∧
      ¬ThirdCheckPasses 1 ⟨0x03, [1], [1, 2]⟩ := by
  unfold FirstCheckPasses SecondCheckPasses ThirdCheckPasses
  decide

theorem witness_ReservedEncodingIsIllegal :
    (busyWith tc 0x0A [] []).running = true ∧ (busyWith tc 0x0A [] []).phase = .busy ⟨0x0A, [], []⟩ ∧
      (0x00 : BitVec 64).toNat % 256 = 0 ∧ 10 ≤ (0x0A : BitVec 64).toNat % 256 ∧
      (0x0104 : BitVec 64).toNat / 256 % 2 ^ 24 ≠ 0 := by decide

theorem witness_UnusedFieldIsIllegal :
    (busyWith tc 0x0000000100000002 [0x00] []).running = true ∧
      (0x0000000100000002 : BitVec 64).toNat % 2 ^ 32 = (Opcode.inc).code.toNat ∧
      Opcode.inc ∉ [Opcode.encU32, .ctrDf, .hashgen, .dfGenerate] ∧
      (0x0000000100000002 : BitVec 64).toNat / 2 ^ 32 ≠ 0 ∧
      (0x0000000500000001 : BitVec 64).toNat % 2 ^ 32 = (Opcode.encU32).code.toNat ∧
      ([0x00] : Bytes).length ≠ 0 ∧
      (0x0000000800000004 : BitVec 64).toNat % 2 ^ 32 = (Opcode.ctrDf).code.toNat ∧
      Opcode.ctrDf ≠ Opcode.bcc := by decide

theorem witness_OverlongOperandExceeds :
    (tc4.placeCommand (encode (.inc [1, 2, 3, 4, 5]))).running = true ∧
      tc4.params.maxOperandBytes < (Instr.inc [1, 2, 3, 4, 5]).opa.length ∧
      tc4.params.maxOperandBytes < (Instr.bcc [] [1, 2, 3, 4, 5]).opb.length := by decide

theorem witness_AssembledWordsPassFirstCheck :
    assembleCommand [] ['I', 'N', 'C', ' ', 'A', '=', '1', '2', 'F', 'F'] =
      some ⟨0x0000000000000002, [0x12, 0xFF], []⟩ := by decide

theorem witness_BigEndianRoundTrip : 0xFFFFFFFF < 2 ^ (8 * 4) ∧ 0 < 2 ^ (8 * 0) := by decide

theorem witness_IncrementWrapsBytewise : (0xFE : Byte) ≠ 0xFF ∧ (0x00 : Byte) ≠ 0xFF := by decide

theorem witness_IncCompletes : ([0xFF] : Bytes).length < 2 ^ 32 := by decide

theorem witness_BccCompletes :
    tc.wfConfig = true ∧ tc.cfg.prim = .cipher ∧ tc.keyOK = true ∧ key.length = tc.keyBytes ∧
      0 < ([1, 2, 3, 4] : Bytes).length ∧ ([1, 2, 3, 4] : Bytes).length % tc.outlen = 0 := by decide

theorem witness_BccFailsInOrder :
    td.cfg.prim = .digest ∧ tcBadKey.cfg.prim = .cipher ∧ tcBadKey.keyOK = false ∧
      tc.cfg.prim = .cipher ∧ tc.keyOK = true ∧ ([0] : Bytes).length ≠ tc.keyBytes ∧
      key.length = tc.keyBytes ∧ ([] : Bytes).length = 0 ∧
      ([1, 2, 3, 4, 5] : Bytes).length % tc.outlen ≠ 0 := by decide

theorem witness_BccChainsAcrossBlocks :
    0 < 4 ∧ ([1, 2, 3, 4] : Bytes).length % 4 = 0 ∧ ([1, 2, 3, 4] : Bytes).length = 4 := by decide

theorem witness_PaddedStringShape : 0 < 1 ∧ 0 < 16 ∧ (([1, 2, 3, 4, 5, 6, 7] : Bytes).length + 9) % 16 = 0 := by
  decide

theorem witness_ChainingKeyCounts : tc.kFixed = fixedKey ∧ tc.keyOK = true := by decide

theorem witness_ChainStageRounds : (∀ k b, (tc.cipher k b).length = 4) ∧ 4 ≤ 4 :=
  ⟨fun _ _ => rfl, le_rfl⟩

theorem witness_CtrDfCompletes :
    tc.wfConfig = true ∧ tc.cfg.prim = .cipher ∧ tc.keyOK = true ∧ (8 : BitVec 32).toNat ≠ 0 ∧
      (8 : BitVec 32).toNat % 8 = 0 ∧ (8 : BitVec 32).toNat ≤ tc.params.maxDfBits ∧
      (524288 : BitVec 32).toNat % 8 = 0 ∧ (524288 : BitVec 32).toNat ≤ tc.params.maxDfBits := by decide

theorem witness_CtrDfWork :
    tc.wfConfig = true ∧ tc.cfg.prim = .cipher ∧ tc.keyOK = true ∧ (8 : BitVec 32).toNat ≠ 0 ∧
      (8 : BitVec 32).toNat % 8 = 0 ∧ (8 : BitVec 32).toNat ≤ tc.params.maxDfBits ∧
      exec (.ctrDf 8 []) tc = .next (tc.complete (tc.ctrDfCommand [] 8)) :=
  ⟨by decide, by decide, by decide, by decide, by decide, by decide, rfl⟩

theorem witness_CtrDfFailsInOrder :
    td.cfg.prim = .digest ∧ tcBadKey.cfg.prim = .cipher ∧ tcBadKey.keyOK = false ∧
      tc.cfg.prim = .cipher ∧ tc.keyOK = true ∧ (0 : BitVec 32).toNat = 0 ∧
      (12 : BitVec 32).toNat % 8 ≠ 0 ∧ (524296 : BitVec 32).toNat ≠ 0 ∧
      (524296 : BitVec 32).toNat % 8 = 0 ∧ tc.params.maxDfBits < (524296 : BitVec 32).toNat := by decide

theorem witness_LengthPrefixSeparates :
    ([] : Bytes).length < 2 ^ 32 ∧ ([0xAA] : Bytes).length < 2 ^ 32 ∧ 1 < 2 ^ 32 ∧ 2 < 2 ^ 32 ∧
      ([] : Bytes).length ≠ ([0xAA] : Bytes).length ∧ 1 ≠ 2 := by decide

theorem witness_HashgenCompletes :
    td.wfConfig = true ∧ td.cfg.prim = .digest ∧ (0 : BitVec 32).toNat % 8 = 0 ∧
      (0 : BitVec 32).toNat ≤ td.params.maxHashgenBits ∧ (524288 : BitVec 32).toNat % 8 = 0 ∧
      (524288 : BitVec 32).toNat ≤ td.params.maxHashgenBits := by decide

theorem witness_HashgenFailsInOrder :
    tc.cfg.prim = .cipher ∧ td.cfg.prim = .digest ∧ (4 : BitVec 32).toNat % 8 ≠ 0 ∧
      (524296 : BitVec 32).toNat % 8 = 0 ∧ td.params.maxHashgenBits < (524296 : BitVec 32).toNat := by
  decide

theorem witness_HashgenWithinOneDigest :
    1 ≤ 2 ∧ 16 ≤ 8 * 2 ∧ 16 % 8 = 0 ∧ 0 ≤ 8 * 2 ∧ 0 % 8 = 0 := by decide

theorem witness_DfDeriveCompletes :
    tc.wfConfig = true ∧ tc.cfg.prim = .cipher ∧ tc.keyOK = true ∧ tc.seedlen ≠ 0 ∧
      tc.seedlen % 8 = 0 ∧ tc.seedlen ≤ tc.params.maxDfBits := by decide

theorem witness_DfDeriveFailsInOrder :
    td.cfg.prim = .digest ∧ tcBadKey.cfg.prim = .cipher ∧ tcBadKey.keyOK = false ∧
      (tcSeed 0).cfg.prim = .cipher ∧ (tcSeed 0).keyOK = true ∧ (tcSeed 0).seedlen = 0 ∧
      (tcSeed 100).cfg.prim = .cipher ∧ (tcSeed 100).keyOK = true ∧ (tcSeed 100).seedlen % 8 ≠ 0 ∧
      (tcSeed 524296).cfg.prim = .cipher ∧ (tcSeed 524296).keyOK = true ∧
      (tcSeed 524296).seedlen ≠ 0 ∧ (tcSeed 524296).seedlen % 8 = 0 ∧
      (tcSeed 524296).params.maxDfBits < (tcSeed 524296).seedlen := by decide

theorem witness_DfGenerateCompletes :
    td.wfConfig = true ∧ td.cfg.prim = .digest ∧ (40 : BitVec 32).toNat % 8 = 0 ∧
      (40 : BitVec 32).toNat ≤ td.params.maxHashgenBits := by decide

theorem witness_DfGenerateFailsInOrder :
    tc.cfg.prim = .cipher ∧ td.cfg.prim = .digest ∧ (4 : BitVec 32).toNat % 8 ≠ 0 ∧
      (524296 : BitVec 32).toNat % 8 = 0 ∧ td.params.maxHashgenBits < (524296 : BitVec 32).toNat := by
  decide

theorem witness_KeyOkMeans : tc.keyOK = true := by decide

theorem witness_IllFormedConfigIsRefused :
    (falling 0 3).pins.rst = false ∧ (falling 0 3).inReset = true ∧
      (falling 0 3).pins.cfgOutlenBytes.toNat < 4 ∧
      (falling 1 0).pins.cfgOutlenBytes.toNat ≠ (falling 1 0).params.digest.digestBytes := by decide

theorem witness_StepRunsTheAcceptedCommand :
    (busyWith tc 0x02 [0xFF] []).running = true ∧
      (busyWith tc 0x02 [0xFF] []).phase = .busy ⟨0x02, [0xFF], []⟩ ∧
      decodeCommand tc.params.maxOperandBytes ⟨0x02, [0xFF], []⟩ = .ok (.inc [0xFF]) :=
  ⟨by decide, by decide, rfl⟩

theorem witness_PlacedWordRuns :
    tc.wfConfig = true ∧ decodeTableWord 64 0x06 = some .dfSeedlen := by decide

theorem witness_IdleEngineAccepts :
    tc.running = true ∧ tc.phase = .idle ∧ tc.pins.cmdValid = false ∧
      (presented tc).running = true ∧ (presented tc).phase = .idle ∧
      (presented tc).pins.cmdValid = true := by decide

/-- TC with a response waiting, and a host that takes it or does not. -/
def waiting (ready : Bool) : State :=
  { tc with phase := .done, pins := { tc.pins with rspReady := ready } }

theorem witness_ResponseHandOver :
    (waiting false).running = true ∧ (waiting false).phase = .done ∧
      (waiting false).pins.rspReady = false ∧ (waiting true).running = true ∧
      (waiting true).phase = .done ∧ (waiting true).pins.rspReady = true ∧
      (waiting true).takeResponse.tick.pins.rst = false := by decide

/-- The step from BUSY of DF_SEEDLEN on TC, which serves the statements about a completion. -/
theorem witness_CompletionWritesOnlyResponse :
    (busyWith tc 0x06 [] []).running = true ∧ (busyWith tc 0x06 [] []).phase = .busy ⟨0x06, [], []⟩ ∧
      step (busyWith tc 0x06 [] []) =
        .next ((busyWith tc 0x06 [] []).tick.complete (.ok ⟨encodeUint32 96, []⟩)) :=
  ⟨by decide, by decide, rfl⟩

theorem witness_ResponseChangesOnlyAtCompletion :
    step tc = .next tc ∧ tc.pins.rst = false ∧ tc.inReset = false ∧ tc.phase = .idle :=
  ⟨rfl, rfl, rfl, rfl⟩

theorem witness_ErrorGivesNoOutput :
    (busyWith tc 0x0A [] []).running = true ∧
      step (busyWith tc 0x0A [] []) =
        .next ((busyWith tc 0x0A [] []).tick.raise .illegalCommand) ∧
      ((busyWith tc 0x0A [] []).tick.raise .illegalCommand).rspStatus ≠ 0x00 :=
  ⟨by decide, rfl, by decide⟩

/-- Two states that differ in their last response and run the same command. -/
theorem witness_ResponseDependsOnCommandAlone :
    (busyWith tc 0x06 [] []).running = true ∧
      (busyWith { tc with rspStatus := 0x02 } 0x06 [] []).running = true ∧
      (busyWith { tc with rspStatus := 0x02 } 0x06 [] []).phase = (busyWith tc 0x06 [] []).phase ∧
      (busyWith { tc with rspStatus := 0x02 } 0x06 [] []).cfg = (busyWith tc 0x06 [] []).cfg ∧
      (response (step (busyWith { tc with rspStatus := 0x02 } 0x06 [] []))).isSome = true ∧
      (response (step (busyWith tc 0x06 [] []))).isSome = true := by decide

theorem witness_RepeatedCommandRepeatsResponse :
    exec .dfSeedlen tc = .next (tc.complete (.ok ⟨encodeUint32 96, []⟩)) ∧
      exec .dfStrength (tc.complete (.ok ⟨encodeUint32 96, []⟩)) =
        .next ((tc.complete (.ok ⟨encodeUint32 96, []⟩)).complete (.ok ⟨encodeUint32 64, []⟩)) ∧
      (response (exec .dfSeedlen ((tc.complete (.ok ⟨encodeUint32 96, []⟩)).complete
        (.ok ⟨encodeUint32 64, []⟩)))).isSome = true :=
  ⟨rfl, rfl, rfl⟩

theorem witness_AcceptedCommandCompletes :
    (presented tc).running = true ∧ (presented tc).phase = .idle ∧
      (presented tc).pins.cmdValid = true ∧ (presented tc).tick.pins.rst = false := by decide

theorem witness_ConfigurationLoadsOnlyAtFall :
    step (falling 0 4) = .next (falling 0 4).leaveReset.tick ∧ (falling 0 4).pins.rst = false ∧
      (falling 0 4).inReset = true ∧ step tc = .next tc ∧ tc.inReset = false := ⟨rfl, rfl, rfl, rfl, rfl⟩

theorem witness_FixedKeyNeverWritten : step tc = .next tc := rfl

theorem witness_ResetAbandonsCommand :
    ({ tc with pins := { tc.pins with rst := true } } : State).pins.rst = true := by decide

theorem witness_FallOfResetLoadsState :
    (falling 1 2).pins.rst = false ∧ (falling 1 2).inReset = true ∧
      wfCfg (falling 1 2).params (Cfg.sample (falling 1 2).pins) = true ∧
      (falling 1 2).leaveReset.tick.pins.rst = false := by decide

/-- The invariant of `tc` and a step from it. -/
theorem witness_StepKeepsInvariant : tc.Inv ∧ step tc = .next tc :=
  ⟨⟨by decide, by decide, by decide, by decide, by decide, by decide, by decide, by decide⟩, rfl⟩

/-- An idle engine in reset whose `rst` is 0 meets the invariant and is ready for the command it is
presented. -/
theorem witness_TransfersAreTheHandOvers_fall :
    (presented (falling 0 4)).Inv ∧ (presented (falling 0 4)).inReset = true ∧
      (presented (falling 0 4)).cmdReady = true ∧
      step (presented (falling 0 4)) =
        .next { presented tc with phase := .busy (presented (falling 0 4)).pins.cmd } :=
  ⟨⟨by decide, by decide, by decide, by decide, by decide, by decide, by decide, by decide⟩, rfl,
    by decide, rfl⟩

theorem witness_TransfersAreTheHandOvers :
    (waiting true).Inv ∧ (waiting true).pins.rspReady = true ∧ (waiting true).rspValid = true ∧
      step (waiting true) = .next (waiting true).takeResponse ∧
      (waiting true).takeResponse.phase = .idle :=
  ⟨⟨by decide, by decide, by decide, by decide, by decide, by decide, by decide, by decide⟩, rfl,
    by decide, rfl, rfl⟩

theorem witness_EngineNeverStops :
    tc.Inv ∧ tc.inReset = false ∧ wfCfg tc.params (Cfg.sample tc.pins) = true :=
  ⟨witness_StepKeepsInvariant.1, rfl, by decide⟩

end Sys2Proof.Tests
end

section
/-! PROOFS, 00_scope.md. The round trip of the big-endian reading (R12), the meaning of `keyOK` (R8)
and the invariant of the engine's state. The invariant turns on one fact about a completed command:
its result fits the response registers and its requests are on the port that is present
(`answerOf_admitted`). -/

namespace Sys2Proof.Machine

/-! ### Big-endian numbers (00_scope.md R12) -/

/-- Read back, `n` bytes of a number are the number modulo `2^(8n)`. -/
theorem intBE_bytesBE_mod (v n : Nat) : intBE (bytesBE v n) = v % 2 ^ (8 * n) := by
  induction n with
  | zero => simp [bytesBE, Nat.mod_one]
  | succ n ih =>
    calc intBE (bytesBE v (n + 1))
        = v / 2 ^ (8 * n) % 2 ^ 8 * 2 ^ (8 * n) + v % 2 ^ (8 * n) := by
          rw [bytesBE, intBE_cons, ih, bytesBE_length, BitVec.toNat_ofNat]
      _ = v % (2 ^ (8 * n) * 2 ^ 8) := by rw [Nat.mod_mul, Nat.mul_comm, Nat.add_comm]
      _ = v % 2 ^ (8 * (n + 1)) := by rw [← Nat.pow_add, Nat.mul_succ]

/-- The bytes of the number a byte string stands for are the byte string. -/
theorem bytesBE_intBE (b : Bytes) : bytesBE (intBE b) b.length = b := by
  induction b with
  | nil => rfl
  | cons x s ih =>
    have high : intBE (x :: s) / 2 ^ (8 * s.length) = x.toNat := by
      rw [intBE_cons, Nat.mul_comm, Nat.mul_add_div (by positivity),
        Nat.div_eq_of_lt (intBE_lt s), Nat.add_zero]
    have low : intBE (x :: s) % 2 ^ (8 * s.length) = intBE s := by
      rw [intBE_cons, Nat.mul_add_mod_self_right, Nat.mod_eq_of_lt (intBE_lt s)]
    rw [List.length_cons, bytesBE, high, ← bytesBE_mod _ _ _ le_rfl, low, ih, BitVec.ofNat_toNat,
      BitVec.setWidth_eq]

/-- Settles O11: `intBE_bytesBE_mod` on the defined range, and `bytesBE_intBE`. -/
theorem bigEndianRoundTrip : Obligations.BigEndianRoundTrip :=
  ⟨fun v n hv => ⟨bytesBE_length v n, by rw [intBE_bytesBE_mod, Nat.mod_eq_of_lt hv]⟩,
    bytesBE_intBE⟩

/-! ### The key size (00_scope.md R8) -/

theorem State.keyOK_iff (s : State) :
    s.keyOK = true ↔ s.keylen ∈ s.params.cipherKeySizes ∧ s.keylen % 8 = 0 ∧ 8 ≤ s.keylen ∧
      s.keylen ≤ 256 := by
  rw [State.keyOK, decide_eq_true_iff]

/-- A supported key is 1 to 32 whole bytes. -/
theorem State.keyBytes_of_keyOK {s : State} (h : s.keyOK = true) :
    s.keylen = 8 * s.keyBytes ∧ 1 ≤ s.keyBytes ∧ s.keyBytes ≤ 32 := by
  obtain ⟨-, whole, low, high⟩ := s.keyOK_iff.mp h
  unfold State.keyBytes
  omega

/-- Settles O35: the predicate of R8 and the key bytes it gives. -/
theorem keyOkMeans : Obligations.KeyOkMeans :=
  fun s => ⟨s.keyOK_iff, State.keyBytes_of_keyOK⟩

/-! ### What the decoder accepts (30_encoding.md R75 to R79) -/

/-- A command that decodes passes the checks of R75, R76 and R77, and stands for the instruction of
its opcode with its operands. -/
theorem decodeCommand_ok {maxBytes : Nat} {c : Command} {i : Instr}
    (h : decodeCommand maxBytes c = .ok i) :
    ∃ op, Opcode.ofByte (opcField c.word) = some op ∧ rsvField c.word = 0 ∧
      operandCheck op c = .ok () ∧ lengthCheck maxBytes c = .ok () ∧
      i = op.assemble (scalarField c.word) c.opa c.opb := by
  unfold decodeCommand at h
  split at h
  · cases h
  next op hop =>
    split at h
    · cases h
    next hrsv =>
      split at h
      · cases h
      next hoperand =>
        split at h
        · cases h
        next hlength =>
          exact ⟨op, hop, not_ne_iff.mp hrsv, hoperand, hlength, (Except.ok.inj h).symm⟩

theorem lengthCheck_ok {maxBytes : Nat} {c : Command} (h : lengthCheck maxBytes c = .ok ()) :
    c.opa.length ≤ maxBytes ∧ c.opb.length ≤ maxBytes := by
  unfold lengthCheck at h
  split at h
  · cases h
  split at h
  · cases h
  omega

theorem Opcode.assemble_opa_length_le (op : Opcode) (scalar : BitVec 32) (opa opb : Bytes) :
    (op.assemble scalar opa opb).opa.length ≤ opa.length := by
  cases op <;> simp [Opcode.assemble, Instr.opa]

/-- The operand `OPA` of an accepted instruction is within the limit (R77). -/
theorem opa_length_le_of_decodes {maxBytes : Nat} {c : Command} {i : Instr}
    (h : decodeCommand maxBytes c = .ok i) : i.opa.length ≤ maxBytes := by
  obtain ⟨op, -, -, -, hlength, rfl⟩ := decodeCommand_ok h
  obtain ⟨hopa, -⟩ := lengthCheck_ok hlength
  exact (Opcode.assemble_opa_length_le op _ _ _).trans hopa

/-! ### Lengths and requests of the algorithms -/

/-- The chaining value keeps the length of a block. -/
theorem chainBlocks_length {E : Cipher} {key : Bytes} {n : Nat} (hE : ∀ k b, (E k b).length = n)
    (Bs : List Bytes) (chain : Bytes) (hc : chain.length = n) :
    (chainBlocks E key Bs chain).bytes.length = n := by
  induction Bs generalizing chain with
  | nil => exact hc
  | cons B Bs ih => exact ih _ (hE _ _)

theorem bcc_length {E : Cipher} {outlen : Nat} (hE : ∀ k b, (E k b).length = outlen)
    (key data : Bytes) : (bcc E outlen key data).bytes.length = outlen :=
  chainBlocks_length hE _ _ (zeros_length outlen)

theorem chainBlocks_onCipherPort (E : Cipher) (key : Bytes) (Bs : List Bytes) (chain : Bytes) :
    ∀ q ∈ (chainBlocks E key Bs chain).reqs, q.onCipherPort = true := by
  induction Bs generalizing chain with
  | nil => exact List.forall_mem_nil _
  | cons B Bs ih => exact List.forall_mem_cons.mpr ⟨rfl, ih _⟩

theorem bcc_onCipherPort (E : Cipher) (outlen : Nat) (key data : Bytes) :
    ∀ q ∈ (bcc E outlen key data).reqs, q.onCipherPort = true :=
  chainBlocks_onCipherPort E key _ _

theorem chainStage_onCipherPort (E : Cipher) (outlen need : Nat) (k0 str : Bytes) (fuel i : Nat)
    (temp : Traced) (h : ∀ q ∈ temp.reqs, q.onCipherPort = true) :
    ∀ q ∈ (chainStage E outlen need k0 str fuel i temp).reqs, q.onCipherPort = true := by
  induction fuel generalizing i temp with
  | zero => exact h
  | succ fuel ih =>
    unfold chainStage
    split
    · exact ih _ _ (List.forall_mem_append.mpr ⟨h, bcc_onCipherPort E outlen k0 _⟩)
    · exact h

theorem expandStage_onCipherPort (E : Cipher) (k1 : Bytes) (nb fuel : Nat) (x : Bytes)
    (out : Traced) (h : ∀ q ∈ out.reqs, q.onCipherPort = true) :
    ∀ q ∈ (expandStage E k1 nb fuel x out).reqs, q.onCipherPort = true := by
  induction fuel generalizing x out with
  | zero => exact h
  | succ fuel ih =>
    unfold expandStage
    split
    · exact ih _ _ (List.forall_mem_append.mpr ⟨h, List.forall_mem_singleton.mpr rfl⟩)
    · exact h

theorem ctrDf_onCipherPort (E : Cipher) (outlen kl : Nat) (k0 seed : Bytes) (nbits : Nat) :
    ∀ q ∈ (ctrDf E outlen kl k0 seed nbits).reqs, q.onCipherPort = true :=
  List.forall_mem_append.mpr
    ⟨chainStage_onCipherPort _ _ _ _ _ _ _ _ (List.forall_mem_nil _),
      expandStage_onCipherPort _ _ _ _ _ _ (List.forall_mem_nil _)⟩

theorem digestLoop_onDigestPort (H : Digest) (m : Nat) (data : Bytes) (out : Traced)
    (h : ∀ q ∈ out.reqs, q.onCipherPort = false) :
    ∀ q ∈ (digestLoop H m data out).reqs, q.onCipherPort = false := by
  induction m generalizing data out with
  | zero => exact h
  | succ m ih => exact ih _ _ (List.forall_mem_append.mpr ⟨h, List.forall_mem_singleton.mpr rfl⟩)

theorem hashgen_onDigestPort (H : Digest) (outlen : Nat) (v : Bytes) (nbits : Nat) :
    ∀ q ∈ (hashgen H outlen v nbits).reqs, q.onCipherPort = false :=
  digestLoop_onDigestPort H _ v _ (List.forall_mem_nil _)

/-! ### Results an engine can respond with -/

/-- The result fits `RSP_LEN` and `RSP_DATA`, and its requests are on the port that is present
(10_state.md R30, R31; 30_encoding.md R84). -/
structure State.Admits (s : State) (r : Traced) : Prop where
  fitsLen : r.bytes.length < 2 ^ 32
  fitsData : r.bytes.length ≤ s.rspCapacity
  onPort : ∀ q ∈ r.reqs, q.onCipherPort = s.cipherPortPresent

/-- The capacity is the largest of the five bounds of 10_state.md R31. -/
theorem State.le_rspCapacity_iff (s : State) (n : Nat) :
    n ≤ s.rspCapacity ↔ n ≤ 4 ∨ n ≤ s.outlen ∨ n ≤ s.params.maxDfBits / 8 ∨
      n ≤ s.params.maxHashgenBits / 8 ∨ n ≤ s.params.maxOperandBytes := by
  simp only [State.rspCapacity, le_max_iff]

/-- Operands of a well-formed configuration are shorter than `2^32` bytes, on either variant
(00_scope.md R9, R10). -/
theorem State.maxOperandBytes_lt {s : State} (hw : s.wfConfig = true) :
    s.params.maxOperandBytes < 2 ^ 32 := by
  cases hp : s.cfg.prim with
  | cipher =>
    obtain ⟨-, -, hmax⟩ := State.wfConfig_cipher hw hp
    exact hmax
  | digest =>
    obtain ⟨-, -, hmax⟩ := State.wfConfig_digest hw hp
    exact hmax

theorem State.admits_encodeUint32 (s : State) (v : Nat) : s.Admits ⟨encodeUint32 v, []⟩ where
  fitsLen := by simp
  fitsData := (s.le_rspCapacity_iff _).mpr (.inl (encodeUint32_length v).le)
  onPort := List.forall_mem_nil _

theorem State.admits_incrementModPow2 {s : State} (hw : s.wfConfig = true) {b : Bytes}
    (hb : b.length ≤ s.params.maxOperandBytes) : s.Admits ⟨incrementModPow2 b, []⟩ where
  fitsLen := by
    rw [incrementModPow2_length]
    exact hb.trans_lt (State.maxOperandBytes_lt hw)
  fitsData := by
    rw [State.le_rspCapacity_iff, incrementModPow2_length]
    exact .inr (.inr (.inr (.inr hb)))
  onPort := List.forall_mem_nil _

theorem State.admits_of_bccAnswer {s : State} (hw : s.wfConfig = true) {data key : Bytes}
    {r : Traced} (h : s.bccAnswer data key = .ok r) : s.Admits r := by
  obtain ⟨hp, -, -, -, -, rfl⟩ := State.bccAnswer_ok h
  obtain ⟨hblock, -, -⟩ := State.wfConfig_cipher hw hp
  have hlen : (bcc s.cipher s.outlen key data).bytes.length = s.outlen :=
    bcc_length (fun k b => (s.cipher_length k b).trans hblock) key data
  have hout : s.outlen < 2 ^ 16 := s.cfg.outlenBytes.isLt
  refine ⟨by omega, (s.le_rspCapacity_iff _).mpr (.inr (.inl hlen.le)), ?_⟩
  simpa [State.cipherPortPresent, hp] using bcc_onCipherPort s.cipher s.outlen key data

theorem State.admits_of_ctrDfAnswer {s : State} (hp : s.cfg.prim = .cipher) {seed : Bytes}
    {nbits : Nat} (hn : nbits < 2 ^ 32) {r : Traced} (h : s.ctrDfAnswer seed nbits = .ok r) :
    s.Admits r := by
  obtain ⟨-, -, hmax, rfl⟩ := State.ctrDfAnswer_ok h
  have hlen : (ctrDf s.cipher s.outlen s.keyBytes s.chainingKey seed nbits).bytes.length ≤
      nbits / 8 := List.length_take_le _ _
  refine ⟨by omega, (s.le_rspCapacity_iff _).mpr (.inr (.inr (.inl ?_))), ?_⟩
  · exact hlen.trans (Nat.div_le_div_right hmax)
  · simpa [State.cipherPortPresent, hp] using ctrDf_onCipherPort s.cipher s.outlen _ _ seed nbits

theorem State.admits_of_hashgenAnswer {s : State} (hp : s.cfg.prim = .digest) {v : Bytes}
    {nbits : Nat} (hn : nbits < 2 ^ 32) {r : Traced} (h : s.hashgenAnswer v nbits = .ok r) :
    s.Admits r := by
  obtain ⟨-, hmax, rfl⟩ := State.hashgenAnswer_ok h
  have hlen : (hashgen s.digest s.outlen v nbits).bytes.length ≤ nbits / 8 :=
    List.length_take_le _ _
  refine ⟨by omega, (s.le_rspCapacity_iff _).mpr (.inr (.inr (.inr (.inl ?_)))), ?_⟩
  · exact hlen.trans (Nat.div_le_div_right hmax)
  · simpa [State.cipherPortPresent, hp] using hashgen_onDigestPort s.digest s.outlen v nbits

/-- Every result of an instruction whose operand is within the limit can be responded with. -/
theorem answerOf_admitted {s : State} (hw : s.wfConfig = true) {i : Instr}
    (hopa : i.opa.length ≤ s.params.maxOperandBytes) {r : Traced} (h : answerOf i s = .ok r) :
    s.Admits r := by
  cases i with
  | encU32 value =>
    cases h
    exact s.admits_encodeUint32 _
  | inc buffer =>
    cases h
    exact State.admits_incrementModPow2 hw hopa
  | bcc data key => exact State.admits_of_bccAnswer hw h
  | ctrDf nbits seed =>
    obtain ⟨hp, -, hanswer⟩ := State.ctrDfCommand_ok h
    exact State.admits_of_ctrDfAnswer hp nbits.isLt hanswer
  | hashgen nbits stateValue =>
    obtain ⟨hp, hanswer⟩ := State.hashgenCommand_ok h
    exact State.admits_of_hashgenAnswer hp nbits.isLt hanswer
  | dfSeedlen =>
    cases h
    exact s.admits_encodeUint32 _
  | dfStrength =>
    cases h
    exact s.admits_encodeUint32 _
  | dfDerive seed =>
    obtain ⟨hp, -, hanswer⟩ := State.deriveAnswer_ok h
    exact State.admits_of_ctrDfAnswer hp s.cfg.seedlenBits.isLt hanswer
  | dfGenerate nbits stateValue =>
    obtain ⟨hp, hanswer⟩ := State.generateAnswer_ok h
    exact State.admits_of_hashgenAnswer hp nbits.isLt hanswer

/-! ### The invariant under the operations of a step -/

theorem State.running_iff (s : State) :
    s.running = true ↔ s.pins.rst = false ∧ s.inReset = false ∧ s.wfConfig = true := by
  simp only [State.running, Bool.and_eq_true, Bool.not_eq_true', and_assoc]

/-- An operation that keeps the configuration, the ROM and the response keeps the invariant, unless it
leaves IDLE in reset. -/
theorem State.Inv.of_sameResponse {s t : State} (h : s.Inv) (hparams : t.params = s.params)
    (hcfg : t.cfg = s.cfg) (hrom : t.kFixed = s.kFixed) (hrsp : SameResponse s t)
    (hreqs : t.primReqs = s.primReqs)
    (hreset : t.inReset = true → s.inReset = true ∧ t.phase = s.phase) : t.Inv where
  romHolds := hrom.trans h.romHolds
  configured := by
    rw [State.wfConfig, hparams, hcfg]
    exact h.configured
  lenIsLength := by
    rw [hrsp.len, hrsp.data]
    exact h.lenIsLength
  statusLegal := by
    rw [hrsp.status]
    exact h.statusLegal
  errorEmpty := by
    rw [hrsp.status, hrsp.data, hreqs]
    exact h.errorEmpty
  withinCapacity := by
    rw [hrsp.data, State.rspCapacity, State.outlen, hparams, hcfg]
    exact h.withinCapacity
  requestsOnPort := by
    rw [hreqs, State.cipherPortPresent, hcfg]
    exact h.requestsOnPort
  resetIdle := by
    intro ht
    obtain ⟨hs, hphase⟩ := hreset ht
    rw [hphase, hrsp.status, hrsp.data]
    exact h.resetIdle hs

theorem State.Inv.tick {s : State} (h : s.Inv) : s.tick.Inv :=
  h.of_sameResponse rfl rfl rfl ⟨rfl, rfl, rfl⟩ rfl fun hs => ⟨hs, rfl⟩

theorem State.Inv.idleStep {s : State} (h : s.Inv) (hr : s.inReset = false) : s.idleStep.Inv :=
  h.of_sameResponse (by simp) (by simp) (by simp) ⟨by simp, by simp, by simp⟩ (by simp) (by simp [hr])

theorem State.Inv.doneStep {s : State} (h : s.Inv) (hr : s.inReset = false) : s.doneStep.Inv :=
  h.of_sameResponse (by simp) (by simp) (by simp) ⟨by simp, by simp, by simp⟩ (by simp) (by simp [hr])

/-- An idle engine with the ROM, a well-formed configuration and the reset response meets the
invariant (70_reset_and_hazards.md R240). -/
theorem State.Inv.of_resetResponse {t : State} (hrom : t.kFixed = fixedKey)
    (hw : t.wfConfig = true) (hphase : t.phase = .idle) (hstatus : t.rspStatus = 0x00)
    (hlen : t.rspLen = 0) (hdata : t.rspData = []) (hreqs : t.primReqs = []) : t.Inv where
  romHolds := hrom
  configured := hw
  lenIsLength := by simp [hlen, hdata]
  statusLegal := by
    rw [hstatus]
    decide
  errorEmpty := fun _ => ⟨hdata, hreqs⟩
  withinCapacity := by simp [hdata]
  requestsOnPort := by simp [hreqs]
  resetIdle := fun _ => ⟨hphase, hstatus, hdata⟩

theorem State.Inv.enterReset {s : State} (h : s.Inv) : s.enterReset.Inv :=
  .of_resetResponse h.romHolds h.configured rfl rfl rfl rfl rfl

theorem State.Inv.leaveReset {s : State} (h : s.Inv) (hw : s.leaveReset.wfConfig = true) :
    s.leaveReset.Inv :=
  .of_resetResponse h.romHolds hw rfl rfl rfl rfl rfl

theorem ErrorCode.code_legal (e : ErrorCode) : legalStatus e.code = true := by
  cases e <;> decide

theorem State.Inv.respond {s : State} (h : s.Inv) (hr : s.inReset = false) {r : Traced}
    (hadm : s.Admits r) : (s.respond r).Inv where
  romHolds := h.romHolds
  configured := h.configured
  lenIsLength := (s.respond_completes r hadm.fitsLen).len
  statusLegal := by
    rw [State.respond_rspStatus]
    decide
  errorEmpty := by simp [failedStatus]
  withinCapacity := hadm.fitsData
  requestsOnPort := hadm.onPort
  resetIdle := by simp [hr]

theorem State.Inv.raise {s : State} (h : s.Inv) (hr : s.inReset = false) (e : ErrorCode) :
    (s.raise e).Inv where
  romHolds := h.romHolds
  configured := h.configured
  lenIsLength := rfl
  statusLegal := e.code_legal
  errorEmpty := fun _ => ⟨rfl, rfl⟩
  withinCapacity := Nat.zero_le _
  requestsOnPort := List.forall_mem_nil _
  resetIdle := by simp [hr]

/-- The completion of an instruction whose operand is within the limit keeps the invariant, whatever
its answer is. -/
theorem State.Inv.complete {s : State} (h : s.Inv) (hr : s.inReset = false) {i : Instr}
    (hopa : i.opa.length ≤ s.params.maxOperandBytes) : (s.complete (answerOf i s)).Inv := by
  cases hanswer : answerOf i s with
  | ok r => exact h.respond hr (answerOf_admitted h.configured hopa hanswer)
  | error e => exact h.raise hr e

/-- Settles O53, by the cases of a step (`step_next_cases`): each operation keeps the invariant. -/
theorem stepKeepsInvariant : Obligations.StepKeepsInvariant := by
  intro s t h hstep
  obtain ⟨-, rfl⟩ | ⟨-, -, hw, rfl⟩ | ⟨hrun, hphase⟩ := step_next_cases hstep
  · exact h.enterReset.tick
  · exact (h.leaveReset hw).idleStep rfl
  · obtain ⟨-, hr, -⟩ := s.running_iff.mp hrun
    obtain ⟨-, rfl⟩ | ⟨-, rfl⟩ | ⟨c, -, ⟨i, hdecode, rfl⟩ | ⟨e, -, rfl⟩⟩ := hphase
    · exact h.idleStep hr
    · exact h.doneStep hr
    · exact h.tick.complete hr (opa_length_le_of_decodes hdecode)
    · exact h.tick.raise hr e.errorCode

end Sys2Proof.Machine
end

section
/-! PROOFS, 10_state.md. What a step does to the configuration and response registers (R26, R32), and
what a response depends on (R36). The last turns on one fact: the answer of a command reads nothing of
the state but the parameters, the configuration and the fixed key (`commandAnswer_of_same`). -/

namespace Sys2Proof.Machine

/-! ### What an answer reads (10_state.md R36) -/

section SameInputs

variable {s t : State} (hparams : t.params = s.params) (hcfg : t.cfg = s.cfg)
  (hrom : t.kFixed = s.kFixed)

include hparams hcfg

theorem State.bccAnswer_of_same (data key : Bytes) : t.bccAnswer data key = s.bccAnswer data key := by
  obtain ⟨hE, -, -, hkeyBytes, houtlen, -, -, hkeyOK, -, -⟩ := State.operands_of_same hparams hcfg
  simp only [State.bccAnswer, hcfg, hE, hkeyBytes, houtlen, hkeyOK]

theorem State.hashgenAnswer_of_same (v : Bytes) (nbits : Nat) :
    t.hashgenAnswer v nbits = s.hashgenAnswer v nbits := by
  obtain ⟨-, hH, -, -, houtlen, -, -, -, -, -⟩ := State.operands_of_same hparams hcfg
  simp only [State.hashgenAnswer, hparams, hH, houtlen]

include hrom

/-- `ctr_df` is the one algorithm that reads the ROM, for its chaining key (20_memory.md R51). -/
theorem State.ctrDfAnswer_of_same (seed : Bytes) (nbits : Nat) :
    t.ctrDfAnswer seed nbits = s.ctrDfAnswer seed nbits := by
  obtain ⟨hE, -, -, hkeyBytes, houtlen, -, -, -, -, -⟩ := State.operands_of_same hparams hcfg
  simp only [State.ctrDfAnswer, State.chainingKey, hparams, hrom, hE, hkeyBytes, houtlen]

theorem answerOf_of_same (i : Instr) : answerOf i t = answerOf i s := by
  obtain ⟨-, -, -, -, -, hseedlen, hstrength, hkeyOK, -, -⟩ := State.operands_of_same hparams hcfg
  cases i with
  | encU32 value => rfl
  | inc buffer => rfl
  | bcc data key => exact State.bccAnswer_of_same hparams hcfg data key
  | ctrDf nbits seed =>
    simp only [answerOf, State.ctrDfCommand, hcfg, hkeyOK,
      State.ctrDfAnswer_of_same hparams hcfg hrom]
  | hashgen nbits stateValue =>
    simp only [answerOf, State.hashgenCommand, hcfg, State.hashgenAnswer_of_same hparams hcfg]
  | dfSeedlen => simp only [answerOf, hseedlen]
  | dfStrength => simp only [answerOf, hstrength]
  | dfDerive seed =>
    simp only [answerOf, State.deriveAnswer, hcfg, hkeyOK, hseedlen,
      State.ctrDfAnswer_of_same hparams hcfg hrom]
  | dfGenerate nbits stateValue =>
    simp only [answerOf, State.generateAnswer, hcfg, State.hashgenAnswer_of_same hparams hcfg]

end SameInputs

/-- The answer of an accepted command: that of its instruction, or the error of its rejection
(30_encoding.md R75 to R79). -/
def commandAnswer (c : Command) (s : State) : Except ErrorCode Traced :=
  match decodeCommand s.params.maxOperandBytes c with
  | .ok i => answerOf i s
  | .error r => .error r.errorCode

/-- An accepted command completes with its answer. -/
theorem step_busy {s : State} {c : Command} (hrun : s.running = true) (hphase : s.phase = .busy c) :
    step s = .next (s.tick.complete (commandAnswer c s.tick)) := by
  rw [step_running hrun]
  simp only [hphase, commandAnswer, State.tick_params]
  cases decodeCommand s.params.maxOperandBytes c with
  | ok i => exact exec_eq i s.tick
  | error r => rfl

theorem commandAnswer_of_same {s t : State} (hparams : t.params = s.params) (hcfg : t.cfg = s.cfg)
    (hrom : t.kFixed = s.kFixed) (c : Command) : commandAnswer c t = commandAnswer c s := by
  simp only [commandAnswer, hparams, answerOf_of_same hparams hcfg hrom]

/-- Settles O44: both completions write the same answer (`commandAnswer_of_same`), and what they leave
in the response registers depends on it alone (`State.complete_response`). -/
theorem responseDependsOnCommandAlone : Obligations.ResponseDependsOnCommandAlone := by
  intro s s' t t' c hrun hrun' hphase hphase' hparams hcfg hrom hstep hstep'
  rw [step_busy hrun hphase, Host.Outcome.next.injEq] at hstep
  rw [step_busy hrun' hphase', Host.Outcome.next.injEq] at hstep'
  have hanswer : commandAnswer c s'.tick = commandAnswer c s.tick :=
    commandAnswer_of_same hparams hcfg hrom c
  rw [← hstep, ← hstep', hanswer]
  exact State.complete_response _ _ _

/-! ### The configuration registers (10_state.md R26) -/

@[simp] theorem State.complete_cfg (s : State) (r : Except ErrorCode Traced) :
    (s.complete r).cfg = s.cfg :=
  (s.complete_frame r).cfg

theorem Prim.ofBit_eq_cipher_iff (b : BitVec 1) : Prim.ofBit b = .cipher ↔ b = 0 := by
  simp [Prim.ofBit]

/-- At the fall of `rst` a step samples the configuration inputs (70_reset_and_hazards.md R241). -/
theorem step_cfg_of_fall {s t : State} (hstep : step s = .next t) (hrst : s.pins.rst = false)
    (hreset : s.inReset = true) : t.cfg = Cfg.sample s.pins := by
  obtain ⟨hrst', -⟩ | ⟨-, -, -, rfl⟩ | ⟨hrun, -⟩ := step_next_cases hstep
  · simp [hrst] at hrst'
  · simp
  · obtain ⟨-, hreset', -⟩ := s.running_iff.mp hrun
    simp [hreset] at hreset'

/-- Everywhere but at the fall of `rst` a step keeps the configuration registers (R26). -/
theorem step_cfg_of_not_fall {s t : State} (hstep : step s = .next t)
    (h : s.pins.rst = true ∨ s.inReset = false) : t.cfg = s.cfg := by
  obtain ⟨-, rfl⟩ | ⟨hrst, hreset, -⟩ | ⟨-, hphase⟩ := step_next_cases hstep
  · simp
  · simp [hrst, hreset] at h
  · obtain ⟨-, rfl⟩ | ⟨-, rfl⟩ | ⟨c, -, ⟨i, -, rfl⟩ | ⟨e, -, rfl⟩⟩ := hphase <;> simp

/-- Settles O47, by the cases of a step: `step_cfg_of_fall` and `step_cfg_of_not_fall`. -/
theorem configurationLoadsOnlyAtFall : Obligations.ConfigurationLoadsOnlyAtFall := by
  intro s t hstep
  refine ⟨fun ⟨hrst, hreset⟩ => ?_, step_cfg_of_not_fall hstep⟩
  rw [step_cfg_of_fall hstep hrst hreset]
  exact ⟨Prim.ofBit_eq_cipher_iff _, rfl, rfl, rfl, rfl⟩

/-! ### The response registers (10_state.md R32) -/

theorem State.idleStep_sameResponse (s : State) : SameResponse s s.idleStep :=
  ⟨s.idleStep_rspStatus, s.idleStep_rspLen, s.idleStep_rspData⟩

theorem State.doneStep_sameResponse (s : State) : SameResponse s s.doneStep :=
  ⟨s.doneStep_rspStatus, s.doneStep_rspLen, s.doneStep_rspData⟩

/-- Settles O42: outside reset a step that completes no command is a hand-over, from IDLE or from
DONE. -/
theorem responseChangesOnlyAtCompletion : Obligations.ResponseChangesOnlyAtCompletion := by
  intro s t hstep hrst hreset hbusy
  obtain ⟨hrst', -⟩ | ⟨-, hreset', -⟩ | ⟨-, hphase⟩ := step_next_cases hstep
  · simp [hrst] at hrst'
  · simp [hreset] at hreset'
  · obtain ⟨-, rfl⟩ | ⟨-, rfl⟩ | ⟨c, hc, -⟩ := hphase
    · exact s.idleStep_sameResponse
    · exact s.doneStep_sameResponse
    · exact absurd hc (hbusy c)

end Sys2Proof.Machine
end

section
/-! PROOFS, 20_memory.md. Commands are idempotent (R59): a command writes nothing an answer reads
(`answerOf_complete`), so a later run of a command completes with the answer of the first. -/

namespace Sys2Proof.Machine

/-- Completion keeps all that an answer reads: the parameters, the configuration and the fixed key. -/
theorem answerOf_complete (i : Instr) (s : State) (r : Except ErrorCode Traced) :
    answerOf i (s.complete r) = answerOf i s := by
  have hframe := s.complete_frame r
  exact answerOf_of_same hframe.params hframe.cfg hframe.kFixed i

theorem exec_next_iff {i : Instr} {s t : State} :
    exec i s = .next t ↔ t = s.complete (answerOf i s) := by
  rw [exec_eq, Host.Outcome.next.injEq, eq_comm]

/-- Settles O45: after both commands the answer is still that of the first run
(`answerOf_complete`), and the response registers depend on it alone. -/
theorem repeatedCommandRepeatsResponse : Obligations.RepeatedCommandRepeatsResponse := by
  intro i j s t u v hfirst hother hagain
  rw [exec_next_iff] at hfirst hother hagain
  have hanswer : answerOf i u = answerOf i s := by
    calc answerOf i u
        = answerOf i t := by rw [hother, answerOf_complete]
      _ = answerOf i s := by rw [hfirst, answerOf_complete]
  obtain ⟨hresponse, -⟩ := State.complete_response s u (answerOf i s)
  rwa [hfirst, hagain, hanswer]

end Sys2Proof.Machine
end

section
/-! PROOFS, 30_encoding.md: the command word and the decoder. The opcode map and the fields of the
word are inverted once (R71, R73); each check of R75 to R77 is then an `↔`, and the decoder's three
outcomes are read off them (`decodeCommand_illegal`, `decodeCommand_exceeds`,
`decodeCommand_of_checks`). -/

namespace Sys2Proof.Machine

/-! ### The opcode map (R73, R74) -/

@[simp] theorem Opcode.ofByte_code (op : Opcode) : Opcode.ofByte op.code = some op := by
  cases op <;> rfl

/-- A byte that names an opcode is the code of that opcode. -/
theorem Opcode.eq_code_of_ofByte {b : BitVec 8} {op : Opcode} (h : Opcode.ofByte b = some op) :
    b = op.code := by
  apply BitVec.eq_of_toNat_eq
  unfold Opcode.ofByte at h
  split at h
  all_goals cases h <;> assumption

/-- The opcodes are the bytes 0x01 to 0x09. -/
theorem Opcode.exists_ofByte_iff (b : BitVec 8) :
    (∃ op, Opcode.ofByte b = some op) ↔ 1 ≤ b.toNat ∧ b.toNat ≤ 9 := by
  constructor
  · rintro ⟨op, h⟩
    rw [Opcode.eq_code_of_ofByte h]
    cases op <;> decide
  · rintro ⟨low, high⟩
    unfold Opcode.ofByte
    generalize b.toNat = n at low high
    interval_cases n <;> exact ⟨_, rfl⟩

theorem Opcode.usesScalar_iff_code (op : Opcode) :
    op.usesScalar = true ↔ op.code.toNat ∈ [1, 4, 5, 9] := by
  cases op <;> decide

theorem Opcode.usesA_iff_code (op : Opcode) :
    op.usesA = true ↔ op.code.toNat ∈ [2, 3, 4, 5, 8, 9] := by
  cases op <;> decide

theorem Opcode.usesB_iff_code (op : Opcode) : op.usesB = true ↔ op.code.toNat = 3 := by
  cases op <;> decide

theorem Opcode.usesScalar_iff (op : Opcode) :
    op.usesScalar = true ↔ op ∈ [.encU32, .ctrDf, .hashgen, .dfGenerate] := by
  cases op <;> decide

theorem Opcode.usesA_eq_false_iff (op : Opcode) :
    op.usesA = false ↔ op ∈ [.encU32, .dfSeedlen, .dfStrength] := by
  cases op <;> decide

theorem Opcode.usesB_iff (op : Opcode) : op.usesB = true ↔ op = .bcc := by
  cases op <;> decide

/-! ### The fields of the command word (R71) -/

theorem opcField_toNat (w : BitVec 64) : (opcField w).toNat = w.toNat % 256 := by
  simp [opcField]

theorem rsvField_toNat (w : BitVec 64) : (rsvField w).toNat = w.toNat / 256 % 2 ^ 24 := by
  simp [rsvField, Nat.shiftRight_eq_div_pow]

theorem scalarField_toNat (w : BitVec 64) : (scalarField w).toNat = w.toNat / 2 ^ 32 := by
  have := w.isLt
  simp only [scalarField, BitVec.extractLsb'_toNat, Nat.shiftRight_eq_div_pow]
  omega

theorem rsvField_eq_zero_iff (w : BitVec 64) :
    rsvField w = 0 ↔ w.toNat / 256 % 2 ^ 24 = 0 := by
  rw [← rsvField_toNat, ← BitVec.toNat_inj]
  rfl

theorem scalarField_eq_zero_iff (w : BitVec 64) : scalarField w = 0 ↔ w.toNat / 2 ^ 32 = 0 := by
  rw [← scalarField_toNat, ← BitVec.toNat_inj]
  rfl

/-- Two words with the same fields are the same word. -/
theorem word_ext {v w : BitVec 64} (hopc : opcField v = opcField w) (hrsv : rsvField v = rsvField w)
    (hscalar : scalarField v = scalarField w) : v = w := by
  rw [← BitVec.toNat_inj] at hopc hrsv hscalar ⊢
  rw [opcField_toNat, opcField_toNat] at hopc
  rw [rsvField_toNat, rsvField_toNat] at hrsv
  rw [scalarField_toNat, scalarField_toNat] at hscalar
  omega

/-- The fields of a word pack to the word. -/
theorem packWord_of_fields (w : BitVec 64) :
    packWord (scalarField w) (rsvField w) (opcField w) = w := by
  obtain ⟨hopc, hrsv, hscalar⟩ := Laws.packWord_fields (scalarField w) (rsvField w) (opcField w)
  exact word_ext hopc hrsv hscalar

/-! ### The three checks (R75 to R77) -/

/-- The first check: `OPC` names an opcode and `RSV` is 0 (R75). -/
theorem firstCheckPasses_iff (c : Command) :
    FirstCheckPasses c ↔
      ∃ op, Opcode.ofByte (opcField c.word) = some op ∧ rsvField c.word = 0 := by
  rw [exists_and_right, Opcode.exists_ofByte_iff, opcField_toNat, rsvField_eq_zero_iff, and_assoc,
    FirstCheckPasses]

theorem operandCheck_ok_iff (op : Opcode) (c : Command) :
    operandCheck op c = .ok () ↔ (op.usesScalar = false → scalarField c.word = 0) ∧
      (op.usesA = false → c.opa = []) ∧ (op.usesB = false → c.opb = []) := by
  simp only [operandCheck, ne_eq, List.length_eq_zero_iff]
  split_ifs with hscalar hopa hopb
  · simp only [false_iff]
    exact fun ⟨h, _⟩ => hscalar.2 (h hscalar.1)
  · simp only [false_iff]
    exact fun ⟨_, h, _⟩ => hopa.2 (h hopa.1)
  · simp only [false_iff]
    exact fun ⟨_, _, h⟩ => hopb.2 (h hopb.1)
  · simp only [not_and, not_not] at hscalar hopa hopb
    exact iff_of_true rfl ⟨hscalar, hopa, hopb⟩

/-- The second check, on a word whose last byte is the code of `op` (R76). -/
theorem secondCheckPasses_iff {c : Command} {op : Opcode} (hop : opcField c.word = op.code) :
    SecondCheckPasses c ↔ operandCheck op c = .ok () := by
  rw [operandCheck_ok_iff, SecondCheckPasses, ← opcField_toNat, hop, ← Opcode.usesScalar_iff_code,
    ← Opcode.usesA_iff_code, ne_eq, ← Opcode.usesB_iff_code, Bool.not_eq_true, Bool.not_eq_true,
    Bool.not_eq_true, scalarField_eq_zero_iff, List.length_eq_zero_iff, List.length_eq_zero_iff]

/-- The third check (R77). -/
theorem lengthCheck_ok_iff (maxBytes : Nat) (c : Command) :
    lengthCheck maxBytes c = .ok () ↔ ThirdCheckPasses maxBytes c := by
  refine ⟨lengthCheck_ok, fun ⟨hopa, hopb⟩ => ?_⟩
  rw [lengthCheck, if_neg hopa.not_gt, if_neg hopb.not_gt]

theorem operandCheck_error {op : Opcode} {c : Command} {r : Reject}
    (h : operandCheck op c = .error r) : r.errorCode = .illegalCommand := by
  unfold operandCheck at h
  split_ifs at h <;> cases h <;> rfl

theorem lengthCheck_error {maxBytes : Nat} {c : Command} {r : Reject}
    (h : lengthCheck maxBytes c = .error r) : r.errorCode = .lengthExceeded := by
  unfold lengthCheck at h
  split_ifs at h <;> cases h <;> rfl

/-! ### The outcomes of the decoder (R75 to R79) -/

/-- What the decoder answers once the first check has passed. -/
theorem decodeCommand_of_opcode {maxBytes : Nat} {c : Command} {op : Opcode}
    (hop : Opcode.ofByte (opcField c.word) = some op) (hrsv : rsvField c.word = 0) :
    decodeCommand maxBytes c =
      (operandCheck op c).bind fun _ => (lengthCheck maxBytes c).map fun _ =>
        op.assemble (scalarField c.word) c.opa c.opb := by
  simp only [decodeCommand, hop, hrsv, ne_eq, not_true_eq_false, if_false]
  cases operandCheck op c with
  | error r => rfl
  | ok _ => cases lengthCheck maxBytes c <;> rfl

/-- A command that passes the three checks decodes to the instruction of its fields (R79). -/
theorem decodeCommand_of_checks {maxBytes : Nat} {c : Command} {op : Opcode}
    (hop : Opcode.ofByte (opcField c.word) = some op) (hrsv : rsvField c.word = 0)
    (hoperand : operandCheck op c = .ok ()) (hlength : lengthCheck maxBytes c = .ok ()) :
    decodeCommand maxBytes c = .ok (op.assemble (scalarField c.word) c.opa c.opb) := by
  rw [decodeCommand_of_opcode hop hrsv, hoperand, hlength]
  rfl

/-- A command that fails the first or the second check is illegal (R75, R76). -/
theorem decodeCommand_illegal {c : Command} (maxBytes : Nat)
    (h : ¬(FirstCheckPasses c ∧ SecondCheckPasses c)) :
    ∃ r, decodeCommand maxBytes c = .error r ∧ r.errorCode = .illegalCommand := by
  cases hop : Opcode.ofByte (opcField c.word) with
  | none => exact ⟨.reservedOpcode, by simp [decodeCommand, hop], rfl⟩
  | some op =>
    by_cases hrsv : rsvField c.word = 0
    · cases hoperand : operandCheck op c with
      | error r =>
        exact ⟨r, by rw [decodeCommand_of_opcode hop hrsv, hoperand]; rfl,
          operandCheck_error hoperand⟩
      | ok _ =>
        exact absurd ⟨(firstCheckPasses_iff c).mpr ⟨op, hop, hrsv⟩,
          (secondCheckPasses_iff (Opcode.eq_code_of_ofByte hop)).mpr hoperand⟩ h
    · refine ⟨.reservedBits, ?_, rfl⟩
      simp only [decodeCommand, hop]
      exact if_pos hrsv

/-- A command that passes the first two checks and fails the third has an operand over the limit
(R77). -/
theorem decodeCommand_exceeds {maxBytes : Nat} {c : Command} (hfirst : FirstCheckPasses c)
    (hsecond : SecondCheckPasses c) (hthird : ¬ThirdCheckPasses maxBytes c) :
    ∃ r, decodeCommand maxBytes c = .error r ∧ r.errorCode = .lengthExceeded := by
  obtain ⟨op, hop, hrsv⟩ := (firstCheckPasses_iff c).mp hfirst
  have hoperand := (secondCheckPasses_iff (Opcode.eq_code_of_ofByte hop)).mp hsecond
  cases hlength : lengthCheck maxBytes c with
  | error r =>
    exact ⟨r, by rw [decodeCommand_of_opcode hop hrsv, hoperand, hlength]; rfl,
      lengthCheck_error hlength⟩
  | ok _ => exact absurd ((lengthCheck_ok_iff _ _).mp hlength) hthird

/-- A command that passes the three checks decodes (R79). -/
theorem decodeCommand_decodes {maxBytes : Nat} {c : Command} (hfirst : FirstCheckPasses c)
    (hsecond : SecondCheckPasses c) (hthird : ThirdCheckPasses maxBytes c) :
    ∃ i, decodeCommand maxBytes c = .ok i := by
  obtain ⟨op, hop, hrsv⟩ := (firstCheckPasses_iff c).mp hfirst
  exact ⟨_, decodeCommand_of_checks hop hrsv
    ((secondCheckPasses_iff (Opcode.eq_code_of_ofByte hop)).mp hsecond)
    ((lengthCheck_ok_iff _ _).mpr hthird)⟩

/-- Settles O4: the outcomes of the three cases exclude one another, and one of the cases holds. -/
theorem decodeIsTotal : Obligations.DecodeIsTotal := by
  intro maxBytes c
  by_cases hpass : FirstCheckPasses c ∧ SecondCheckPasses c
  · obtain ⟨hfirst, hsecond⟩ := hpass
    by_cases hthird : ThirdCheckPasses maxBytes c
    · obtain ⟨i, hi⟩ := decodeCommand_decodes hfirst hsecond hthird
      simp [hi, hfirst, hsecond, hthird]
    · obtain ⟨r, hr, hcode⟩ := decodeCommand_exceeds hfirst hsecond hthird
      simp [hr, hcode, hfirst, hsecond, hthird]
  · obtain ⟨r, hr, hcode⟩ := decodeCommand_illegal maxBytes hpass
    simp [hr, hcode, ← and_assoc, hpass]

/-! ### Encoding (R70 to R74) -/

/-- An instruction is its opcode with its operands. -/
@[simp] theorem Instr.assemble_self (i : Instr) :
    i.opcode.assemble i.scalar i.opa i.opb = i := by
  cases i <;> rfl

@[simp] theorem Opcode.assemble_opcode (op : Opcode) (scalar : BitVec 32) (opa opb : Bytes) :
    (op.assemble scalar opa opb).opcode = op := by
  cases op <;> rfl

/-- An instruction keeps the scalar if it is 0 where the opcode does not use it (R74). -/
theorem Opcode.assemble_scalar {op : Opcode} {scalar : BitVec 32} {opa opb : Bytes}
    (h : op.usesScalar = false → scalar = 0) : (op.assemble scalar opa opb).scalar = scalar := by
  cases op <;> simp_all [Opcode.assemble, Instr.scalar, Opcode.usesScalar]

/-- An instruction keeps the operand `OPA` if it is empty where the opcode does not use it (R74). -/
theorem Opcode.assemble_opa {op : Opcode} {scalar : BitVec 32} {opa opb : Bytes}
    (h : op.usesA = false → opa = []) : (op.assemble scalar opa opb).opa = opa := by
  cases op <;> simp_all [Opcode.assemble, Instr.opa, Opcode.usesA]

/-- An instruction keeps the operand `OPB` if it is empty where the opcode does not use it (R74). -/
theorem Opcode.assemble_opb {op : Opcode} {scalar : BitVec 32} {opa opb : Bytes}
    (h : op.usesB = false → opb = []) : (op.assemble scalar opa opb).opb = opb := by
  cases op <;> simp_all [Opcode.assemble, Instr.opb, Opcode.usesB]

theorem encode_fields (i : Instr) :
    opcField (encode i).word = i.opcode.code ∧ rsvField (encode i).word = 0 ∧
      scalarField (encode i).word = i.scalar :=
  Laws.packWord_fields _ _ _

/-- The fields that an opcode does not use are 0 or empty in its instructions (R74). -/
theorem operandCheck_encode (i : Instr) : operandCheck i.opcode (encode i) = .ok () := by
  obtain ⟨-, -, hscalar⟩ := encode_fields i
  rw [operandCheck_ok_iff, hscalar]
  cases i <;> simp [encode, Instr.opcode, Instr.scalar, Instr.opa, Instr.opb, Opcode.usesScalar,
    Opcode.usesA, Opcode.usesB]

theorem firstCheckPasses_encode (i : Instr) : FirstCheckPasses (encode i) := by
  obtain ⟨hopc, hrsv, -⟩ := encode_fields i
  exact (firstCheckPasses_iff _).mpr ⟨i.opcode, by rw [hopc, Opcode.ofByte_code], hrsv⟩

theorem secondCheckPasses_encode (i : Instr) : SecondCheckPasses (encode i) := by
  obtain ⟨hopc, -, -⟩ := encode_fields i
  exact (secondCheckPasses_iff hopc).mpr (operandCheck_encode i)

theorem Instr.wellFormed_iff (maxBytes : Nat) (i : Instr) :
    i.wellFormed maxBytes = true ↔ i.opa.length ≤ maxBytes ∧ i.opb.length ≤ maxBytes := by
  simp [Instr.wellFormed, Instr.opaFits, Instr.opbFits]

/-- Settles O2: the command of an instruction passes the three checks, and its fields are those of
the instruction (`encode_fields`). -/
theorem decodeOfEncode : Obligations.DecodeOfEncode := by
  intro maxBytes i hwf
  obtain ⟨hopc, hrsv, hscalar⟩ := encode_fields i
  have hop : Opcode.ofByte (opcField (encode i).word) = some i.opcode := by
    rw [hopc, Opcode.ofByte_code]
  have hlength : lengthCheck maxBytes (encode i) = .ok () :=
    (lengthCheck_ok_iff _ _).mpr ((Instr.wellFormed_iff _ _).mp hwf)
  calc decodeCommand maxBytes (encode i)
      = .ok (i.opcode.assemble (scalarField (encode i).word) i.opa i.opb) :=
        decodeCommand_of_checks hop hrsv (operandCheck_encode i) hlength
    _ = .ok i := by rw [hscalar, Instr.assemble_self]

/-- A command whose unused fields are 0 or empty is the encoding of its opcode with its operands. -/
theorem encode_assemble {c : Command} {op : Opcode} (hop : opcField c.word = op.code)
    (hrsv : rsvField c.word = 0) (hoperand : operandCheck op c = .ok ()) :
    encode (op.assemble (scalarField c.word) c.opa c.opb) = c := by
  obtain ⟨hscalar, hopa, hopb⟩ := (operandCheck_ok_iff op c).mp hoperand
  rw [encode, Opcode.assemble_opcode, Opcode.assemble_scalar hscalar, Opcode.assemble_opa hopa,
    Opcode.assemble_opb hopb, ← hop, ← hrsv, packWord_of_fields]

/-- Settles O3: what passes the checks is an encoding (`encode_assemble`), and the third check is the
operand limit. -/
theorem encodeOfDecode : Obligations.EncodeOfDecode := by
  intro maxBytes c i h
  obtain ⟨op, hop, hrsv, hoperand, hlength, rfl⟩ := decodeCommand_ok h
  have hencode := encode_assemble (Opcode.eq_code_of_ofByte hop) hrsv hoperand
  refine ⟨hencode, (Instr.wellFormed_iff _ _).mpr ?_⟩
  have hthird := lengthCheck_ok hlength
  rwa [← hencode] at hthird

end Sys2Proof.Machine
end

section
/-! PROOFS, 30_encoding.md: what a command's word and operands make the engine do (R75 to R77, R79),
and the command word as bytes and as a row of the opcode table (R81). -/

namespace Sys2Proof.Machine

/-! ### Rejected and accepted commands in a step (R75 to R79) -/

/-- A rejected command completes with the status of its rejection and no output. -/
theorem step_fails_of_rejected {s : State} {c : Command} (e : ErrorCode) (hrun : s.running = true)
    (hphase : s.phase = .busy c)
    (h : ∃ r, decodeCommand s.params.maxOperandBytes c = .error r ∧ r.errorCode = e) :
    ∃ t, step s = .next t ∧ FailsWith s.tick t e.code := by
  obtain ⟨r, hr, rfl⟩ := h
  refine ⟨s.tick.raise r.errorCode, ?_, State.raise_fails _ _⟩
  simp only [step_running hrun, hphase, hr]

/-- Settles O5: the word fails the first check, read on its digits. -/
theorem reservedEncodingIsIllegal : Obligations.ReservedEncodingIsIllegal := by
  intro s c hrun hphase hreserved
  refine step_fails_of_rejected .illegalCommand hrun hphase (decodeCommand_illegal _ ?_)
  rintro ⟨⟨hlow, hhigh, hrsv⟩, -⟩
  omega

/-- Settles O6: the command fails the second check, whatever the first says. -/
theorem unusedFieldIsIllegal : Obligations.UnusedFieldIsIllegal := by
  intro s c op hrun hphase hword hunused
  refine step_fails_of_rejected .illegalCommand hrun hphase (decodeCommand_illegal _ ?_)
  rintro ⟨-, hsecond⟩
  have hop : opcField c.word = op.code := by
    rw [← BitVec.toNat_inj, opcField_toNat]
    omega
  obtain ⟨hscalar, hopa, hopb⟩ :=
    (operandCheck_ok_iff op c).mp ((secondCheckPasses_iff hop).mp hsecond)
  rw [← Opcode.usesScalar_iff, Bool.not_eq_true, ← Opcode.usesA_eq_false_iff, ne_eq op,
    ← Opcode.usesB_iff, Bool.not_eq_true] at hunused
  obtain ⟨hu, hne⟩ | ⟨hu, hne⟩ | ⟨hu, hne⟩ := hunused
  · exact hne ((scalarField_eq_zero_iff _).mp (hscalar hu))
  · exact hne (List.length_eq_zero_iff.mpr (hopa hu))
  · exact hne (List.length_eq_zero_iff.mpr (hopb hu))

/-- Settles O7: the command of an instruction passes the first two checks, so the third rejects it. -/
theorem overlongOperandExceeds : Obligations.OverlongOperandExceeds := by
  intro s i hrun hphase hlong
  refine step_fails_of_rejected .lengthExceeded hrun hphase
    (decodeCommand_exceeds (firstCheckPasses_encode i) (secondCheckPasses_encode i) ?_)
  rintro ⟨hopa, hopb⟩
  exact hlong.elim hopa.not_gt hopb.not_gt

/-- Settles O37: the step of a running engine in BUSY (`step_running`), where the command decodes. -/
theorem stepRunsTheAcceptedCommand : Obligations.StepRunsTheAcceptedCommand := by
  intro s c i hrun hphase hdecode
  simp only [step_running hrun, hphase, hdecode]

/-! ### The command word as bytes (R81) -/

/-- A byte of a word is a digit of its number in base 256. -/
theorem extractLsb'_eq_ofNat_div (w : BitVec 64) (k : Nat) :
    w.extractLsb' k 8 = BitVec.ofNat 8 (w.toNat / 2 ^ k) := by
  rw [BitVec.extractLsb', Nat.shiftRight_eq_div_pow]

/-- The bytes of a word read back as the word: 8 bytes hold every number below `2^64`. -/
@[simp] theorem wordOfBytes_wordToBytes (w : BitVec 64) : wordOfBytes (wordToBytes w) = some w := by
  have hint : intBE (bytesBE w.toNat 8) = w.toNat := by
    rw [intBE_bytesBE_mod, Nat.mod_eq_of_lt w.isLt]
  rw [wordOfBytes, wordToBytes, if_pos (bytesBE_length _ _), hint, BitVec.ofNat_toNat,
    BitVec.setWidth_eq]

/-- Settles O8: each byte is a digit of the word's number (`extractLsb'_eq_ofNat_div`), and the bytes
read back. -/
theorem commandWordBytesBigEndian : Obligations.CommandWordBytesBigEndian := by
  intro w
  refine ⟨?_, wordOfBytes_wordToBytes w⟩
  simp only [extractLsb'_eq_ofNat_div]
  rfl

/-! ### Rows of the opcode table (R71, R73) -/

/-- The limit on operands does not touch a command without operands. -/
theorem decodeCommand_of_no_operands {w : BitVec 64} {m : Nat} {i : Instr}
    (h : decodeCommand m ⟨w, [], []⟩ = .ok i) (n : Nat) : decodeCommand n ⟨w, [], []⟩ = .ok i := by
  obtain ⟨op, hop, hrsv, hoperand, -, rfl⟩ := decodeCommand_ok h
  exact decodeCommand_of_checks hop hrsv hoperand
    ((lengthCheck_ok_iff _ _).mpr ⟨Nat.zero_le _, Nat.zero_le _⟩)

/-- A row's word goes through the bytes of R81 unchanged, and decodes to what the command of the row
decodes to, on every operand limit. -/
theorem decodeTableWord_eq_some_iff (nbits w : Nat) (i : Instr) (maxBytes : Nat) :
    decodeTableWord nbits w = some i ↔
      decodeCommand maxBytes (tableCommand nbits w) = .ok i := by
  have hreset : decodeTableWord nbits w = some i ↔
      decodeCommand Config.resetParams.maxOperandBytes (tableCommand nbits w) = .ok i := by
    simp only [decodeTableWord, wordOfBytes_wordToBytes, tableCommand]
    cases decodeCommand Config.resetParams.maxOperandBytes ⟨tableWord nbits w, [], []⟩ <;> simp
  rw [hreset]
  exact ⟨fun h => decodeCommand_of_no_operands h _, fun h => decodeCommand_of_no_operands h _⟩

/-- The word of an instruction without operands is a row's word for it. -/
theorem decodeTableWord_encode (i : Instr) (hopa : i.opa = []) (hopb : i.opb = []) :
    decodeTableWord 64 (encode i).word.toNat = some i := by
  have hcommand : tableCommand 64 (encode i).word.toNat = encode i := by
    rw [tableCommand, tableWord, Nat.mod_eq_of_lt (encode i).word.isLt, BitVec.ofNat_toNat,
      BitVec.setWidth_eq]
    simp only [encode, hopa, hopb]
  rw [decodeTableWord_eq_some_iff 64 _ i 0, hcommand]
  exact decodeOfEncode 0 i ((Instr.wellFormed_iff 0 i).mpr (by simp [hopa, hopb]))

/-- Settles O1: each of the nine words is that of the row's instruction, with empty operands
(`decodeTableWord_encode`). -/
theorem tableWordsDecode : Obligations.TableWordsDecode :=
  ⟨decodeTableWord_encode (.encU32 0x01020304) rfl rfl,
    decodeTableWord_encode (.inc []) rfl rfl,
    decodeTableWord_encode (.bcc [] []) rfl rfl,
    decodeTableWord_encode (.ctrDf 12 []) rfl rfl,
    decodeTableWord_encode (.hashgen 264 []) rfl rfl,
    decodeTableWord_encode .dfSeedlen rfl rfl,
    decodeTableWord_encode .dfStrength rfl rfl,
    decodeTableWord_encode (.dfDerive []) rfl rfl,
    decodeTableWord_encode (.dfGenerate 40 []) rfl rfl⟩

/-- An engine with a well-formed configuration runs once a command is placed in it. -/
theorem State.running_placeCommand {s : State} (hw : s.wfConfig = true) (c : Command) :
    (s.placeCommand c).running = true :=
  (State.running_iff _).mpr ⟨rfl, rfl, hw⟩

/-- Settles O38: the row's command decodes on the engine's own operand limit as well. -/
theorem placedWordRuns : Obligations.PlacedWordRuns := by
  intro s nbits w i hw hrow
  exact stepRunsTheAcceptedCommand _ (tableCommand nbits w) i (State.running_placeCommand hw _) rfl
    ((decodeTableWord_eq_some_iff nbits w i _).mp hrow)

end Sys2Proof.Machine
end

section
/-! PROOFS, 30_encoding.md: the host's text of a command (R82, R83). -/

namespace Sys2Proof.Machine

/-- What assembles is the command of an opcode with the fields of a line. -/
theorem assembleCommand_some {vars : HostVars} {text : List Char} {c : Command}
    (h : assembleCommand vars text = some c) : ∃ op, ∃ f : AsmFields, c = f.command op := by
  unfold assembleCommand at h
  dsimp only at h
  split at h
  next op f _ _ => exact ⟨op, f, (Option.some.inj h).symm⟩
  next => cases h

/-- Settles O10: the word of a line is packed from an opcode's code and an `RSV` of 0. -/
theorem assembledWordsPassFirstCheck : Obligations.AssembledWordsPassFirstCheck := by
  intro vars text c h
  obtain ⟨op, f, rfl⟩ := assembleCommand_some h
  obtain ⟨hopc, hrsv, -⟩ := Laws.packWord_fields (f.scalar.getD 0) 0 op.code
  exact ⟨op, by rw [AsmFields.command, hopc, Opcode.ofByte_code], hrsv⟩

theorem dropWhile_isBlank_of_no_blank {t : List Char} (h : ∀ ch ∈ t, isBlank ch = false) :
    t.dropWhile isBlank = t := by
  cases t with
  | nil => rfl
  | cons ch t => simp [h ch List.mem_cons_self]

/-- A text without blanks has no blanks at its ends. -/
theorem trimBlanks_of_no_blank {t : List Char} (h : ∀ ch ∈ t, isBlank ch = false) :
    trimBlanks t = t := by
  rw [trimBlanks, dropWhile_isBlank_of_no_blank h,
    dropWhile_isBlank_of_no_blank (by simpa using h), List.reverse_reverse]

/-- A text without blanks is a mnemonic without operand fields, or assembles to nothing. -/
theorem assembleCommand_of_no_blank (vars : HostVars) {t : List Char}
    (h : ∀ ch ∈ t, isBlank ch = false) :
    assembleCommand vars t = (opcodeOfMnemonic t).map (AsmFields.command {}) := by
  have hmnemonic : (t.takeWhile fun ch => !isBlank ch) = t := by
    simpa [List.takeWhile_eq_self_iff] using h
  have hrest : (t.dropWhile fun ch => !isBlank ch) = [] := by
    simpa [List.dropWhile_eq_nil_iff] using h
  simp only [assembleCommand, trimBlanks_of_no_blank h, hmnemonic, hrest]
  cases opcodeOfMnemonic t <;> rfl

theorem mnemonic_no_blank (op : Opcode) : ∀ ch ∈ mnemonic op, isBlank ch = false := by
  cases op <;> simp [mnemonic, isBlank]

/-- No two opcodes share a mnemonic (R73). -/
theorem opcodeOfMnemonic_mnemonic (op : Opcode) : opcodeOfMnemonic (mnemonic op) = some op := by
  cases op <;> rfl

/-- Settles O9: a mnemonic has no blank, so it is a line without operand fields. -/
theorem mnemonicsAssemble : Obligations.MnemonicsAssemble := by
  intro vars op
  rw [assembleCommand_of_no_blank vars (mnemonic_no_blank op), opcodeOfMnemonic_mnemonic]
  rfl

end Sys2Proof.Machine
end

section
/-! PROOFS, 30_encoding.md and 70_reset_and_hazards.md: reset, progress and the transfers of the two
channels (R78, R84, R240, R244, R245, R247). What a step does to `PHASE` is said once, for a step with
`rst` at 0 from a state of the invariant (`State.Inv.step_phase`). -/

namespace Sys2Proof.Machine

/-! ### Reset (R84, R240, R250) -/

theorem step_of_rst {s : State} (h : s.pins.rst = true) : step s = .next s.enterReset.tick := by
  simp only [step, State.action, h, if_true]

/-- Settles O49: the engine in reset is that of `State.enterReset`, and its ports show it. -/
theorem resetAbandonsCommand : Obligations.ResetAbandonsCommand := by
  intro s hrst
  refine ⟨by simp [State.cmdReady, State.resetAsserted, hrst],
    by simp [State.rspValid, State.resetAsserted, hrst],
    s.enterReset.tick, step_of_rst hrst, rfl, rfl, rfl, rfl, rfl, ?_, rfl⟩
  rw [State.cmdReady_iff]
  exact and_iff_right rfl

/-! ### Progress (R78, R226, R247) -/

/-- A running engine has a next state in every phase. -/
theorem exists_step_of_running {s : State} (h : s.running = true) : ∃ t, step s = .next t := by
  cases hphase : s.phase with
  | idle => exact ⟨s.idleStep, by simp only [step_running h, hphase]⟩
  | busy c => exact ⟨_, step_busy h hphase⟩
  | done => exact ⟨s.doneStep, by simp only [step_running h, hphase]⟩

/-- At the fall of `rst` on a well-formed configuration the engine leaves reset. -/
theorem step_of_fall {s : State} (hrst : s.pins.rst = false) (hreset : s.inReset = true)
    (hw : wfCfg s.params (Cfg.sample s.pins) = true) :
    step s = .next s.leaveReset.idleStep := by
  have hwf : s.leaveReset.wfConfig = true := hw
  simp only [step, State.action, hrst, hreset, State.fallOfReset, hwf, Bool.false_eq_true, if_true,
    if_false]

/-- Settles O54: in reset, at its fall and out of it the engine has a next state. -/
theorem engineNeverStops : Obligations.EngineNeverStops := by
  intro s hinv hfall
  cases hrst : s.pins.rst with
  | true => exact ⟨_, step_of_rst hrst⟩
  | false =>
    cases hreset : s.inReset with
    | false => exact exists_step_of_running (s.running_iff.mpr ⟨hrst, hreset, hinv.configured⟩)
    | true =>
      have hw : wfCfg s.params (Cfg.sample s.pins) = true := by simpa [hrst, hreset] using hfall
      exact ⟨_, step_of_fall hrst hreset hw⟩

/-! ### The transfers (R84, R244, R245) -/

/-- The step from IDLE accepts what is presented. -/
theorem State.idleStep_phase {s : State} (hphase : s.phase = .idle) (hrst : s.pins.rst = false) :
    s.idleStep.phase = if s.pins.cmdValid then .busy s.pins.cmd else .idle := by
  have hready : s.cmdReady = true := s.cmdReady_iff.mpr ⟨hphase, hrst⟩
  obtain ⟨hvalid, -, heq⟩ | ⟨hidle, heq⟩ := s.idleStep_cases
  · rw [heq, hvalid]
    rfl
  · have hvalid : s.pins.cmdValid = false := by simpa [hready] using hidle
    rw [heq, hvalid]
    exact hphase

/-- The step from DONE hands over the response to a host that takes it. -/
theorem State.doneStep_phase {s : State} (hphase : s.phase = .done) (hrst : s.pins.rst = false) :
    s.doneStep.phase = if s.pins.rspReady then .idle else .done := by
  have hvalid : s.rspValid = true := s.rspValid_iff.mpr ⟨hphase, hrst⟩
  rw [State.doneStep, State.rspTransfer, hvalid, Bool.true_and]
  cases s.pins.rspReady with
  | true => rfl
  | false => exact hphase

/-- What a step with `rst` at 0 does to `PHASE`, its fall included: there the engine is idle by the
invariant. -/
theorem State.Inv.step_phase {s t : State} (h : s.Inv) (hstep : step s = .next t)
    (hrst : s.pins.rst = false) :
    (s.phase = .idle ∧ t.phase = if s.pins.cmdValid then .busy s.pins.cmd else .idle) ∨
    (s.phase = .done ∧ t.phase = if s.pins.rspReady then .idle else .done) ∨
    ((∃ c, s.phase = .busy c) ∧ t.phase = .done) := by
  obtain ⟨hrst', -⟩ | ⟨-, hreset, -, rfl⟩ | ⟨-, hphase⟩ := step_next_cases hstep
  · simp [hrst] at hrst'
  · obtain ⟨hidle, -⟩ := h.resetIdle hreset
    exact .inl ⟨hidle, State.idleStep_phase rfl hrst⟩
  · obtain ⟨hidle, rfl⟩ | ⟨hdone, rfl⟩ | ⟨c, hbusy, ⟨i, -, rfl⟩ | ⟨e, -, rfl⟩⟩ := hphase
    · exact .inl ⟨hidle, State.idleStep_phase hidle hrst⟩
    · exact .inr (.inl ⟨hdone, State.doneStep_phase hdone hrst⟩)
    · exact .inr (.inr ⟨⟨c, hbusy⟩, State.complete_phase _ _⟩)
    · exact .inr (.inr ⟨⟨c, hbusy⟩, rfl⟩)

/-- While `rst` is 1 a step leaves the engine idle. -/
theorem step_phase_of_rst {s t : State} (hstep : step s = .next t) (hrst : s.pins.rst = true) :
    t.phase = .idle := by
  rw [step_of_rst hrst, Host.Outcome.next.injEq] at hstep
  rw [← hstep]
  rfl

/-- A command is accepted exactly on the transfer of the command channel. -/
theorem State.Inv.busy_iff_cmdTransfer {s t : State} (h : s.Inv) (hstep : step s = .next t)
    (c : Command) :
    t.phase = .busy c ↔ s.pins.cmdValid = true ∧ s.cmdReady = true ∧ s.pins.cmd = c := by
  rw [State.cmdReady_iff]
  cases hrst : s.pins.rst with
  | true => simp [step_phase_of_rst hstep hrst]
  | false =>
    obtain ⟨hs, ht⟩ | ⟨hs, ht⟩ | ⟨⟨d, hs⟩, ht⟩ := h.step_phase hstep hrst
    · cases hvalid : s.pins.cmdValid <;> simp [hs, ht, hvalid]
    · cases hready : s.pins.rspReady <;> simp [hs, ht, hready]
    · simp [hs, ht]

/-- A waiting response is taken exactly when the host is ready for it. -/
theorem State.Inv.idle_iff_rspReady {s t : State} (h : s.Inv) (hstep : step s = .next t)
    (hvalid : s.rspValid = true) : t.phase = .idle ↔ s.pins.rspReady = true := by
  obtain ⟨hdone, hrst⟩ := s.rspValid_iff.mp hvalid
  obtain ⟨hs, -⟩ | ⟨-, ht⟩ | ⟨⟨c, hs⟩, -⟩ := h.step_phase hstep hrst
  · simp [hdone] at hs
  · cases hready : s.pins.rspReady <;> simp [ht, hready]
  · simp [hdone] at hs

/-- Settles O55: the ports (`State.cmdReady_iff`, `State.rspValid_iff`) and the two hand-overs. -/
theorem transfersAreTheHandOvers : Obligations.TransfersAreTheHandOvers := by
  intro s t h hstep
  refine ⟨s.cmdReady_iff, s.rspValid_iff, fun hvalid hready => ?_, fun c hbusy => ?_,
    fun hready hvalid => ?_, fun hdone hrst hidle => ?_⟩
  · exact (h.busy_iff_cmdTransfer hstep _).mpr ⟨hvalid, hready, rfl⟩
  · obtain ⟨hvalid, hready, -⟩ := (h.busy_iff_cmdTransfer hstep c).mp hbusy
    exact ⟨hvalid, hready⟩
  · exact (h.idle_iff_rspReady hstep hvalid).mpr hready
  · exact (h.idle_iff_rspReady hstep (s.rspValid_iff.mpr ⟨hdone, hrst⟩)).mp hidle

end Sys2Proof.Machine
end

section
/-! PROOFS, 40_counter.md: the increment and the commands ENC_U32 and INC. A byte string is determined
by its length and the number it stands for (`eq_of_intBE_eq`), so the bytewise form of the increment
is a statement about numbers (`incrementModPow2_eq_of_intBE`): the trailing 0xFF bytes carry one into
the bytes before them (`intBE_append_max_add_one`). -/

namespace Sys2Proof.Machine

/-! ### The increment (R101) -/

/-- Big-endian reading is injective on byte strings of one length. -/
theorem eq_of_intBE_eq {b c : Bytes} (hlen : b.length = c.length) (hint : intBE b = intBE c) :
    b = c := by
  rw [← bytesBE_intBE b, hlen, hint, bytesBE_intBE]

theorem intBE_incrementModPow2 (b : Bytes) :
    intBE (incrementModPow2 b) = (intBE b + 1) % 2 ^ (8 * b.length) := by
  unfold incrementModPow2
  split
  case isTrue hempty => rw [hempty, intBE_nil, Nat.mul_zero, Nat.pow_zero, Nat.mod_one]
  case isFalse => rw [intBE_bytesBE_mod, Nat.mod_mod]

/-- The increment is the one byte string of its length that stands for one more. -/
theorem incrementModPow2_eq_of_intBE {b c : Bytes} (hlen : c.length = b.length)
    (hint : intBE c = (intBE b + 1) % 2 ^ (8 * b.length)) : incrementModPow2 b = c :=
  eq_of_intBE_eq (by rw [incrementModPow2_length, hlen]) (by rw [intBE_incrementModPow2, hint])

theorem intBE_zeros (n : Nat) : intBE (zeros n) = 0 := by
  induction n with
  | zero => rfl
  | succ n ih =>
    calc intBE (zeros (n + 1))
        = intBE (0 :: zeros n) := rfl
      _ = 0 := by simp [intBE_cons, ih]

theorem intBE_append_zeros (b : Bytes) (n : Nat) :
    intBE (b ++ zeros n) = intBE b * 2 ^ (8 * n) := by
  rw [intBE_append, intBE_zeros, zeros_length, Nat.add_zero]

/-- `n` bytes of 0xFF stand for the largest number of `n` bytes. -/
theorem intBE_max_add_one (n : Nat) : intBE (List.replicate n 0xFF) + 1 = 2 ^ (8 * n) := by
  induction n with
  | zero => rfl
  | succ n ih =>
    calc intBE (List.replicate (n + 1) 0xFF) + 1
        = 255 * 2 ^ (8 * n) + (intBE (List.replicate n 0xFF) + 1) := by
          rw [List.replicate_succ, intBE_cons, List.length_replicate]
          rfl
      _ = 2 ^ (8 * (n + 1)) := by rw [ih]; ring

/-- One more than a number that ends in bytes of 0xFF carries into the bytes before them. -/
theorem intBE_append_max_add_one (b : Bytes) (n : Nat) :
    intBE (b ++ List.replicate n 0xFF) + 1 = (intBE b + 1) * 2 ^ (8 * n) := by
  rw [intBE_append, List.length_replicate, Nat.add_assoc, intBE_max_add_one, Nat.add_one_mul (intBE b)]

/-- A last byte other than 0xFF takes one more without a carry. -/
theorem intBE_append_byte_add_one (b : Bytes) {x : Byte} (hx : x ≠ 0xFF) :
    intBE (b ++ [x + 1]) = intBE (b ++ [x]) + 1 := by
  have hbyte : (x + 1).toNat = x.toNat + 1 := by bv_omega
  simp only [intBE_append, intBE_cons, intBE_nil, hbyte, List.length_singleton, List.length_nil]
  ring

/-- The last byte that is not 0xFF is incremented, and the 0xFF bytes to its right become zero. -/
theorem incrementModPow2_carry (b : Bytes) {x : Byte} (n : Nat) (hx : x ≠ 0xFF) :
    incrementModPow2 (b ++ [x] ++ List.replicate n 0xFF) = b ++ [x + 1] ++ zeros n := by
  have hlen : (b ++ [x + 1] ++ zeros n).length = (b ++ [x] ++ List.replicate n 0xFF).length := by
    simp
  have hint : intBE (b ++ [x + 1] ++ zeros n) =
      intBE (b ++ [x] ++ List.replicate n 0xFF) + 1 := by
    rw [intBE_append_zeros, intBE_append_byte_add_one b hx, intBE_append_max_add_one]
  apply incrementModPow2_eq_of_intBE hlen
  rw [← hint, ← hlen, Nat.mod_eq_of_lt (intBE_lt _)]

/-- The largest number of `n` bytes wraps to zero. -/
theorem incrementModPow2_max (n : Nat) : incrementModPow2 (List.replicate n 0xFF) = zeros n := by
  apply incrementModPow2_eq_of_intBE
  · simp
  · rw [intBE_zeros, intBE_max_add_one, List.length_replicate, Nat.mod_self]

/-- Settles O12: the value form, and the two cases of the bytewise form. -/
theorem incrementWrapsBytewise : Obligations.IncrementWrapsBytewise :=
  ⟨fun b => ⟨incrementModPow2_length b, intBE_incrementModPow2 b⟩,
    fun b _ n hx => incrementModPow2_carry b n hx, incrementModPow2_max⟩

/-! ### The commands (R102, R103) -/

/-- Settles O14: INC answers with the increment, which fits `RSP_LEN` as its operand does. -/
theorem incCompletes : Obligations.IncCompletes := by
  intro b s hb
  have hfits : (incrementModPow2 b).length < 2 ^ 32 := by rwa [incrementModPow2_length]
  exact ⟨_, incrementModPow2 b, exec_eq (.inc b) s, s.respond_completes ⟨_, []⟩ hfits,
    incrementModPow2_length b, intBE_incrementModPow2 b⟩

/-- `encodeUint32` of a 32-bit value is its four bytes, most significant first (R100). -/
theorem encodeUint32_toNat (v : BitVec 32) : encodeUint32 v.toNat =
    [v.extractLsb' 24 8, v.extractLsb' 16 8, v.extractLsb' 8 8, v.extractLsb' 0 8] := by
  simp only [BitVec.extractLsb', Nat.shiftRight_eq_div_pow]
  rfl

/-- Settles O13: ENC_U32 answers with `encodeUint32` of its value. -/
theorem encU32Completes : Obligations.EncU32Completes := by
  intro v s
  rw [← encodeUint32_toNat]
  exact ⟨_, exec_eq (.encU32 v) s, s.respond_completes ⟨encodeUint32 v.toNat, []⟩ (by simp)⟩

end Sys2Proof.Machine
end

section
/-! PROOFS, 41_bcc.md: the chaining compressor and the command BCC. The loop over a list of blocks
is a fold (`chainBlocks_bytes`), so it runs over an appended list one part after the other; and a
byte string cut after a whole number of blocks is cut between two of its blocks (`blocks_append`). -/

namespace Sys2Proof.Machine

/-! ### Blocks of a byte string (00_scope.md R11) -/

/-- Behind exactly `n` pieces of `s`, the pieces of `t` follow. -/
theorem pieces_append {w n : Nat} {s : Bytes} (hs : s.length = n * w) (m : Nat) (t : Bytes) :
    pieces w (n + m) (s ++ t) = pieces w n s ++ pieces w m t := by
  induction n generalizing s with
  | zero =>
    obtain rfl : s = [] := List.eq_nil_of_length_eq_zero (by omega)
    simp [pieces]
  | succ n ih =>
    rw [Nat.succ_mul] at hs
    have hw : w ≤ s.length := by omega
    have hrest : (s.drop w).length = n * w := by rw [List.length_drop]; omega
    rw [Nat.succ_add, pieces, pieces, List.take_append_of_le_length hw,
      List.drop_append_of_le_length hw, ih hrest, List.cons_append]

theorem blocks_append {w : Nat} {s : Bytes} (hs : s.length % w = 0) (t : Bytes) :
    blocks (s ++ t) w = blocks s w ++ blocks t w := by
  have hlen : s.length = s.length / w * w := (Nat.div_mul_cancel (Nat.dvd_of_mod_eq_zero hs)).symm
  have hcount : (s ++ t).length / w = s.length / w + t.length / w := by
    rw [List.length_append, Nat.add_div_of_dvd_right (Nat.dvd_of_mod_eq_zero hs)]
  rw [blocks, hcount, pieces_append hlen, blocks, blocks]

/-- A string of the length of a block is its own only block. -/
theorem blocks_of_length_eq {w : Nat} {s : Bytes} (hs : s.length = w) (hw : 0 < w) :
    blocks s w = [s] := by
  rw [blocks, hs, Nat.div_self hw, pieces, pieces, List.take_of_length_le hs.le]

/-- The blocks of the first `n * w` bytes are the first `n` pieces. -/
theorem blocks_take {w n : Nat} {s : Bytes} (hn : n * w ≤ s.length) (hw : 0 < w) :
    blocks (s.take (n * w)) w = pieces w n s := by
  have hlen : (s.take (n * w)).length = n * w := List.length_take_of_le hn
  calc blocks (s.take (n * w)) w
      = pieces w n (s.take (n * w)) := by rw [blocks, hlen, Nat.mul_div_cancel n hw]
    _ = pieces w n (s.take (n * w) ++ s.drop (n * w)) := by
      simpa [pieces] using (pieces_append hlen 0 (s.drop (n * w))).symm
    _ = pieces w n s := by rw [List.take_append_drop]

/-! ### The loop of R120 -/

/-- The chaining value is a fold over the blocks: `c_{j+1} = E(K, xor(c_j, D_j))` (R122). -/
theorem chainBlocks_bytes (E : Cipher) (key : Bytes) (Bs : List Bytes) (chain : Bytes) :
    (chainBlocks E key Bs chain).bytes = Bs.foldl (fun c B => E key (xorBytes c B)) chain := by
  induction Bs generalizing chain with
  | nil => rfl
  | cons B Bs ih => exact ih _

theorem chainBlocks_bytes_append (E : Cipher) (key : Bytes) (As Bs : List Bytes) (chain : Bytes) :
    (chainBlocks E key (As ++ Bs) chain).bytes =
      (chainBlocks E key Bs (chainBlocks E key As chain).bytes).bytes := by
  simp only [chainBlocks_bytes, List.foldl_append]

/-- One call of `E` per piece, in order: call `j` is on the exclusive or of piece `j` and the
chaining value of the pieces before it. -/
theorem chainBlocks_reqs_pieces (E : Cipher) (key : Bytes) (w n : Nat) (s chain : Bytes) :
    (chainBlocks E key (pieces w n s) chain).reqs = (List.range n).map fun j =>
      .cipher key (xorBytes (chainBlocks E key (pieces w j s) chain).bytes
        ((s.drop (j * w)).take w)) := by
  induction n generalizing s chain with
  | zero => rfl
  | succ n ih =>
    have hdrop (j : Nat) : (s.drop w).drop (j * w) = s.drop ((j + 1) * w) := by
      rw [List.drop_drop, Nat.succ_mul, Nat.add_comm]
    simp [pieces, chainBlocks, ih, hdrop, List.range_succ_eq_map, Function.comp_def]

/-! ### The function `bcc` (R120, R122) -/

theorem bcc_bytes (E : Cipher) (outlen : Nat) (key data : Bytes) :
    (bcc E outlen key data).bytes = chainFrom E outlen key (zeros outlen) data :=
  chainBlocks_bytes E key _ _

theorem bcc_reqs (E : Cipher) {outlen : Nat} (hpos : 0 < outlen) (key data : Bytes) :
    (bcc E outlen key data).reqs = chainRequests E outlen key data := by
  rw [bcc, blocks, chainBlocks_reqs_pieces, chainRequests]
  refine List.map_congr_left fun j hj => ?_
  have hle : j * outlen ≤ data.length :=
    (Nat.le_div_iff_mul_le hpos).mp (List.mem_range.mp hj).le
  rw [chainFrom, blocks_take hle hpos, chainBlocks_bytes]

/-- Settles O17: the blocks of `D ++ D'` are those of `D`, then those of `D'`; and from the chaining
value zero a single block goes to the cipher as it is. -/
theorem bccChainsAcrossBlocks : Obligations.BccChainsAcrossBlocks := by
  intro E outlen key d d' hpos
  refine ⟨fun hmod => ?_, fun hlen => ?_⟩
  · rw [bcc, blocks_append hmod, chainBlocks_bytes_append, ← bcc]
  · calc (bcc E outlen key d).bytes
        = E key (xorBytes (zeros outlen) d) := by rw [bcc, blocks_of_length_eq hlen hpos]; rfl
      _ = E key d := by rw [← hlen, xorBytes_zeros]

/-! ### The command (R121) -/

/-- An instruction whose checks pass completes with its result. -/
theorem exec_completes {i : Instr} {s : State} {r : Traced} (hanswer : answerOf i s = .ok r)
    (hfits : r.bytes.length < 2 ^ 32) :
    ∃ t, exec i s = .next t ∧ CompletesWith s t r.bytes r.reqs :=
  ⟨s.respond r, by rw [exec_eq, hanswer, State.complete_ok], s.respond_completes r hfits⟩

/-- An instruction with a failing check completes with the check's error. -/
theorem exec_fails {i : Instr} {s : State} {e : ErrorCode} (hanswer : answerOf i s = .error e) :
    ∃ t, exec i s = .next t ∧ FailsWith s t e.code :=
  ⟨s.raise e, by rw [exec_eq, hanswer, State.complete_error], s.raise_fails e⟩

section Checks
variable {s : State} {data key : Bytes}

/-! What BCC answers by its checks, in their order. -/

theorem State.bccAnswer_of_digest (hp : s.cfg.prim = .digest) :
    s.bccAnswer data key = .error .unsupportedOperation := by
  simp [State.bccAnswer, hp]

theorem State.bccAnswer_of_not_keyOK (hp : s.cfg.prim = .cipher) (hk : s.keyOK = false) :
    s.bccAnswer data key = .error .unsupportedKeySize := by
  simp [State.bccAnswer, hp, hk]

theorem State.bccAnswer_of_key_length (hp : s.cfg.prim = .cipher) (hk : s.keyOK = true)
    (hkey : key.length ≠ s.keyBytes) : s.bccAnswer data key = .error .invalidInputLength := by
  simp [State.bccAnswer, hp, hk, hkey]

/-- After the checks of the configuration and of the key, the length of the data decides. -/
theorem State.bccAnswer_of_key (hp : s.cfg.prim = .cipher) (hk : s.keyOK = true)
    (hkey : key.length = s.keyBytes) :
    s.bccAnswer data key =
      if data.length = 0 ∨ data.length % s.outlen ≠ 0 then .error .invalidInputLength
      else .ok (bcc s.cipher s.outlen key data) := by
  simp [State.bccAnswer, hp, hk, hkey]

theorem State.bccAnswer_of_data_length (hp : s.cfg.prim = .cipher) (hk : s.keyOK = true)
    (hkey : key.length = s.keyBytes) (hdata : data.length = 0 ∨ data.length % s.outlen ≠ 0) :
    s.bccAnswer data key = .error .invalidInputLength := by
  rw [State.bccAnswer_of_key hp hk hkey, if_pos hdata]

theorem State.bccAnswer_of_checks (hp : s.cfg.prim = .cipher) (hk : s.keyOK = true)
    (hkey : key.length = s.keyBytes) (hpos : 0 < data.length) (hmod : data.length % s.outlen = 0) :
    s.bccAnswer data key = .ok (bcc s.cipher s.outlen key data) := by
  rw [State.bccAnswer_of_key hp hk hkey, if_neg (by omega)]

end Checks

/-- The cipher of a well-formed configuration answers with blocks of `OUTLEN` bytes. -/
theorem State.cipher_length_outlen {s : State} (hw : s.wfConfig = true) (hp : s.cfg.prim = .cipher)
    (key block : Bytes) : (s.cipher key block).length = s.outlen := by
  obtain ⟨hblock, -, -⟩ := State.wfConfig_cipher hw hp
  rw [s.cipher_length, hblock]

/-- Settles O16: each failing check answers with its error where the checks before it pass. -/
theorem bccFailsInOrder : Obligations.BccFailsInOrder := by
  intro data key s
  have fails {e : ErrorCode} (h : s.bccAnswer data key = .error e) :
      ∃ t, exec (.bcc data key) s = .next t ∧ FailsWith s t e.code :=
    exec_fails h
  exact ⟨fun hp => fails (State.bccAnswer_of_digest hp),
    fun hp hk => fails (State.bccAnswer_of_not_keyOK hp hk),
    fun hp hk hkey => fails (State.bccAnswer_of_key_length hp hk hkey),
    fun hp hk hkey hdata => fails (State.bccAnswer_of_data_length hp hk hkey hdata)⟩

/-- Settles O15: the answer is `bcc`, whose result and requests are those of the statement
(`bcc_bytes`, `bcc_reqs`), and one block long. -/
theorem bccCompletes : Obligations.BccCompletes := by
  intro data key s hw hp hk hkey hpos hmod
  obtain ⟨-, hblock, -⟩ := State.wfConfig_cipher hw hp
  have hlen : (bcc s.cipher s.outlen key data).bytes.length = s.outlen :=
    bcc_length (State.cipher_length_outlen hw hp) key data
  have hout : s.outlen < 2 ^ 16 := s.cfg.outlenBytes.isLt
  have hanswer : answerOf (.bcc data key) s = .ok (bcc s.cipher s.outlen key data) :=
    State.bccAnswer_of_checks hp hk hkey hpos hmod
  obtain ⟨t, hexec, hdone⟩ := exec_completes hanswer (by omega)
  refine ⟨t, hexec, ?_, hdone.len.trans hlen⟩
  rwa [bcc_bytes, bcc_reqs _ (by omega)] at hdone

end Sys2Proof.Machine
end

section
/-! PROOFS, 42_ctr_df.md: the counter derivation function and the command CTR_DF. Both stages are one
loop, which appends answers of `OUTLEN` bytes until it has enough of them (`appendUntil`); it makes
`ceil(need / OUTLEN)` rounds (`appendUntil_eq`), so each stage equals its counted form
(`chainStage_eq`, `expandStage_eq`), from which the result and the number of calls are read off. -/

namespace Sys2Proof.Machine

/-! ### `ceil(a / b)` (00_scope.md R12) -/

/-- The model's `ceil(a / b)` is Mathlib's. -/
theorem ceilDiv_eq_mathlib (a b : Nat) : ceilDiv a b = a ⌈/⌉ b :=
  (Nat.ceilDiv_eq_add_pred_div a b).symm

theorem ceilDiv_le_iff {b : Nat} (hb : 0 < b) (a n : Nat) : ceilDiv a b ≤ n ↔ a ≤ b * n := by
  rw [ceilDiv_eq_mathlib, ceilDiv_le_iff_le_mul hb]

/-- `ceil(a / b)` pieces of `b` cover `a`. -/
theorem le_ceilDiv_mul {b : Nat} (hb : 0 < b) (a : Nat) : a ≤ ceilDiv a b * b := by
  rw [Nat.mul_comm]
  exact (ceilDiv_le_iff hb a _).mp le_rfl

theorem ceilDiv_zero {b : Nat} (hb : 0 < b) : ceilDiv 0 b = 0 :=
  Nat.div_eq_of_lt (by omega)

/-- While something is left, one piece is taken off it. -/
theorem ceilDiv_of_pos {a b : Nat} (ha : 0 < a) (hb : 0 < b) :
    ceilDiv a b = ceilDiv (a - b) b + 1 := by
  unfold ceilDiv
  rw [← Nat.add_div_right _ hb]
  rcases Nat.le_total b a with hle | hle
  · congr 1
    omega
  · rw [Nat.div_eq_of_lt_le (k := 1) (by omega) (by omega),
      Nat.div_eq_of_lt_le (k := 1) (by omega) (by omega)]

theorem ceilDiv_eq_of_bounds {a b n : Nat} (hle : a ≤ b * n) (hlt : b * n < a + b) :
    ceilDiv a b = n := by
  apply Nat.div_eq_of_lt_le
  · rw [Nat.mul_comm]
    omega
  · rw [Nat.succ_mul, Nat.mul_comm]
    omega

/-! ### The padded string (R141, R142, R151) -/

/-- `p`, the number of zero bytes behind a string of `n` bytes (R142). -/
def padding (outlen n : Nat) : Nat := (outlen - n % outlen) % outlen

theorem padding_lt {outlen : Nat} (hpos : 0 < outlen) (n : Nat) : padding outlen n < outlen :=
  Nat.mod_lt _ hpos

theorem padding_of_mod_eq_zero {outlen n : Nat} (hmod : n % outlen = 0) : padding outlen n = 0 := by
  rw [padding, hmod, Nat.sub_zero, Nat.mod_self]

/-- The zero bytes fill the last block. -/
theorem dvd_add_padding {outlen : Nat} (hpos : 0 < outlen) (n : Nat) :
    outlen ∣ n + padding outlen n := by
  have hwhole : n + (outlen - n % outlen) = outlen * (n / outlen + 1) := by
    have := Nat.div_add_mod n outlen
    have := Nat.mod_lt n hpos
    rw [Nat.mul_succ]
    omega
  apply Nat.dvd_of_mod_eq_zero
  rw [padding, Nat.add_mod_mod, hwhole, Nat.mul_mod_right]

theorem add_padding {outlen : Nat} (hpos : 0 < outlen) (n : Nat) :
    n + padding outlen n = outlen * ceilDiv n outlen := by
  obtain ⟨k, hk⟩ := dvd_add_padding hpos n
  have hlt := padding_lt hpos n
  rw [hk, ceilDiv_eq_of_bounds (n := k) (by omega) (by omega)]

@[simp] theorem lengthPrefixed_length (seed : Bytes) (nb : Nat) :
    (lengthPrefixed seed nb).length = seed.length + 9 := by
  simp only [lengthPrefixed, List.length_append, encodeUint32_length, List.length_singleton]
  omega

theorem paddedString_eq (outlen : Nat) (seed : Bytes) (nb : Nat) :
    paddedString outlen seed nb =
      lengthPrefixed seed nb ++ zeros (padding outlen (seed.length + 9)) := by
  rw [paddedString, padding, lengthPrefixed_length]

theorem paddedString_length {outlen : Nat} (hpos : 0 < outlen) (seed : Bytes) (nb : Nat) :
    (paddedString outlen seed nb).length = outlen * ceilDiv (seed.length + 9) outlen := by
  rw [paddedString_eq, List.length_append, lengthPrefixed_length, zeros_length, add_padding hpos]

/-- Settles O18: the zero bytes are `padding`, fewer than a block and none where the block is full. -/
theorem paddedStringShape : Obligations.PaddedStringShape := by
  intro outlen seed nb hpos
  exact ⟨padding outlen (seed.length + 9), padding_lt hpos _, paddedString_eq outlen seed nb,
    paddedString_length hpos seed nb, padding_of_mod_eq_zero⟩

/-- The two length fields come first. -/
theorem paddedString_take (outlen : Nat) (seed : Bytes) (nb : Nat) :
    (paddedString outlen seed nb).take 8 = encodeUint32 seed.length ++ encodeUint32 nb := by
  rw [paddedString_eq, lengthPrefixed, List.append_assoc, List.append_assoc,
    List.take_left' (by simp)]

/-- `encodeUint32` is injective on 32-bit numbers. -/
theorem encodeUint32_inj {v w : Nat} (hv : v < 2 ^ 32) (hw : w < 2 ^ 32)
    (h : encodeUint32 v = encodeUint32 w) : v = w := by
  have hint : v % 2 ^ (8 * 4) = w % 2 ^ (8 * 4) := by
    rw [← intBE_bytesBE_mod, ← intBE_bytesBE_mod]
    exact congrArg intBE h
  rwa [Nat.mod_eq_of_lt hv, Nat.mod_eq_of_lt hw] at hint

/-- Settles O24: equal padded strings have equal length fields, and those determine the lengths. -/
theorem lengthPrefixSeparates : Obligations.LengthPrefixSeparates := by
  intro outlen seed seed' nb nb' hseed hseed' hnb hnb'
  refine ⟨paddedString_take outlen seed nb, fun hdiffer heq => ?_⟩
  have hfields : encodeUint32 seed.length ++ encodeUint32 nb =
      encodeUint32 seed'.length ++ encodeUint32 nb' := by
    rw [← paddedString_take outlen, ← paddedString_take outlen, heq]
  obtain ⟨hL, hN⟩ := List.append_inj hfields (by simp)
  rcases hdiffer with hne | hne
  · exact hne (encodeUint32_inj hseed hseed' hL)
  · exact hne (encodeUint32_inj hnb hnb' hN)

/-! ### The chaining key (R143) -/

theorem fixedKey_toList : fixedKey.toList = (List.range 32).map (BitVec.ofNat 8) := by
  decide

/-- Settles O19: a supported key is at most as long as the ROM, which counts up from 0. -/
theorem chainingKeyCounts : Obligations.ChainingKeyCounts := by
  intro s hrom hkey
  obtain ⟨-, hpos, hle⟩ := State.keyBytes_of_keyOK hkey
  have hcounts : s.chainingKey = (List.range s.keyBytes).map (BitVec.ofNat 8) := by
    rw [State.chainingKey, hrom, fixedKey_toList, ← List.map_take, List.take_range,
      Nat.min_eq_left hle]
  exact ⟨hcounts, by simp [hcounts], hpos, hle⟩

/-! ### The loop of the two stages (R144, R146) -/

/-- `acc` with the bytes and the requests of `rounds` appended in order. -/
def Traced.appendAll (acc : Traced) (rounds : List Traced) : Traced :=
  ⟨acc.bytes ++ rounds.flatMap Traced.bytes, acc.reqs ++ rounds.flatMap Traced.reqs⟩

@[simp] theorem Traced.appendAll_nil (acc : Traced) : acc.appendAll [] = acc := by
  simp [appendAll]

theorem Traced.appendAll_cons (acc r : Traced) (rounds : List Traced) :
    acc.appendAll (r :: rounds) =
      Traced.appendAll ⟨acc.bytes ++ r.bytes, acc.reqs ++ r.reqs⟩ rounds := by
  simp [appendAll]

/-- While there are fewer than `need` bytes, the next round is appended. The first argument after
`round` bounds the number of rounds, the second is the number of the next one. -/
def appendUntil (need : Nat) (round : Nat → Traced) : Nat → Nat → Traced → Traced
  | 0, _, acc => acc
  | fuel + 1, i, acc =>
    if acc.bytes.length < need then
      appendUntil need round fuel (i + 1)
        ⟨acc.bytes ++ (round i).bytes, acc.reqs ++ (round i).reqs⟩
    else acc

/-- Round `i` of the chaining stage, `bcc(K0, IV_i ++ S)` (R144). -/
def chainRound (E : Cipher) (outlen : Nat) (k0 str : Bytes) (i : Nat) : Traced :=
  bcc E outlen k0 (ivBlock outlen i ++ str)

/-- Round `i` of the expansion stage from `x`: one call of `E` on the block of the round
before (R146). -/
def expandRound (E : Cipher) (k1 x : Bytes) (i : Nat) : Traced :=
  ⟨(E k1)^[i + 1] x, [.cipher k1 ((E k1)^[i] x)]⟩

theorem chainStage_eq_appendUntil (E : Cipher) (outlen need : Nat) (k0 str : Bytes) (fuel i : Nat)
    (temp : Traced) :
    chainStage E outlen need k0 str fuel i temp =
      appendUntil need (chainRound E outlen k0 str) fuel i temp := by
  induction fuel generalizing i temp with
  | zero => rfl
  | succ fuel ih => simp only [chainStage, appendUntil, ih, chainRound]

theorem expandStage_eq_appendUntil (E : Cipher) (k1 x : Bytes) (nb fuel i : Nat) (out : Traced) :
    expandStage E k1 nb fuel ((E k1)^[i] x) out =
      appendUntil nb (expandRound E k1 x) fuel i out := by
  induction fuel generalizing i out with
  | zero => rfl
  | succ fuel ih =>
    simp only [expandStage, appendUntil, ← Function.iterate_succ_apply', ih, expandRound]

/-- With rounds of `w` bytes and a bound that is large enough, the loop makes `ceil(n / w)` rounds for
the `n` bytes that are missing. -/
theorem appendUntil_eq {need w : Nat} {round : Nat → Traced}
    (hround : ∀ i, (round i).bytes.length = w) (hw : 0 < w) {fuel i : Nat} {acc : Traced}
    (hfuel : need - acc.bytes.length ≤ fuel) :
    appendUntil need round fuel i acc =
      acc.appendAll ((List.range' i (ceilDiv (need - acc.bytes.length) w)).map round) := by
  have henough (acc : Traced) (i : Nat) (h : need ≤ acc.bytes.length) :
      acc.appendAll ((List.range' i (ceilDiv (need - acc.bytes.length) w)).map round) = acc := by
    rw [Nat.sub_eq_zero_of_le h, ceilDiv_zero hw, List.range'_zero, List.map_nil,
      Traced.appendAll_nil]
  induction fuel generalizing i acc with
  | zero => exact (henough acc i (by omega)).symm
  | succ fuel ih =>
    rw [appendUntil]
    split
    case isTrue hmore =>
      have hlen : (acc.bytes ++ (round i).bytes).length = acc.bytes.length + w := by
        rw [List.length_append, hround]
      have hmissing : 0 < need - acc.bytes.length := by omega
      rw [ih (by rw [hlen]; omega), hlen, ceilDiv_of_pos hmissing hw, Nat.sub_sub,
        List.range'_succ, List.map_cons, Traced.appendAll_cons]
    case isFalse => exact (henough acc i (by omega)).symm

/-- From nothing, the loop appends the rounds 0, 1, ... up to `ceil(need / w) - 1`. -/
theorem appendUntil_empty {need w : Nat} {round : Nat → Traced}
    (hround : ∀ i, (round i).bytes.length = w) (hw : 0 < w) {fuel : Nat} (hfuel : need ≤ fuel) :
    appendUntil need round fuel 0 Traced.empty =
      ⟨(List.range (ceilDiv need w)).flatMap fun i => (round i).bytes,
        (List.range (ceilDiv need w)).flatMap fun i => (round i).reqs⟩ := by
  rw [appendUntil_eq hround hw (acc := Traced.empty) (by simpa [Traced.empty] using hfuel)]
  simp [Traced.appendAll, Traced.empty, List.range_eq_range', List.flatMap_map]

/-- Appended answers of one length. -/
theorem length_flatMap_range {α : Type} {f : Nat → List α} {w : Nat} (hf : ∀ i, (f i).length = w)
    (n : Nat) : ((List.range n).flatMap f).length = n * w := by
  simp [List.length_flatMap, hf]

/-! ### The counted stages (R144, R146, R150) -/

@[simp] theorem ivBlock_length {outlen : Nat} (h4 : 4 ≤ outlen) (i : Nat) :
    (ivBlock outlen i).length = outlen := by
  simp [ivBlock, h4]

/-- A round of the chaining stage calls `E` once for each block of `IV_i ++ S`. -/
theorem chainRound_reqs_length (E : Cipher) {outlen : Nat} (h4 : 4 ≤ outlen) (k0 str : Bytes)
    (i : Nat) :
    (chainRound E outlen k0 str i).reqs.length = 1 + str.length / outlen := by
  have hpos : 0 < outlen := by omega
  rw [chainRound, bcc_reqs E hpos, chainRequests, List.length_map, List.length_range,
    List.length_append, ivBlock_length h4, Nat.add_div_left _ hpos, Nat.add_comm]

section Stages
variable {E : Cipher} {outlen : Nat} (hE : ∀ k b, (E k b).length = outlen)
include hE

theorem chainRound_length (k0 str : Bytes) (i : Nat) :
    (chainRound E outlen k0 str i).bytes.length = outlen :=
  bcc_length hE _ _

theorem expandRound_length (k1 x : Bytes) (i : Nat) :
    (expandRound E k1 x i).bytes.length = outlen := by
  simp only [expandRound, Function.iterate_succ_apply', hE]

/-- The chaining stage is its counted form. -/
theorem chainStage_eq (h4 : 4 ≤ outlen) (kl : Nat) (k0 str : Bytes) :
    chainStage E outlen (kl + outlen) k0 str (kl + outlen) 0 Traced.empty =
      ⟨tempOf E outlen kl k0 str,
        (List.range (chainRounds kl outlen)).flatMap fun i =>
          (chainRound E outlen k0 str i).reqs⟩ := by
  rw [chainStage_eq_appendUntil,
    appendUntil_empty (chainRound_length hE k0 str) (by omega) le_rfl]
  simp only [tempOf, chainRounds, chainRound, bcc_bytes]

theorem tempOf_length (kl : Nat) (k0 str : Bytes) :
    (tempOf E outlen kl k0 str).length = chainRounds kl outlen * outlen := by
  refine length_flatMap_range (fun i => ?_) _
  rw [← bcc_bytes]
  exact bcc_length hE _ _

/-- The expansion stage is its counted form. -/
theorem expandStage_eq (hpos : 0 < outlen) (k1 x : Bytes) (nb : Nat) :
    expandStage E k1 nb nb x Traced.empty =
      ⟨expandedFrom E k1 x (ceilDiv nb outlen),
        (List.range (ceilDiv nb outlen)).flatMap fun i => (expandRound E k1 x i).reqs⟩ := by
  calc expandStage E k1 nb nb x Traced.empty
      = appendUntil nb (expandRound E k1 x) nb 0 Traced.empty :=
        expandStage_eq_appendUntil E k1 x nb nb 0 Traced.empty
    _ = _ := appendUntil_empty (expandRound_length hE k1 x) hpos le_rfl

theorem expandedFrom_length (k1 x : Bytes) (n : Nat) :
    (expandedFrom E k1 x n).length = n * outlen :=
  length_flatMap_range (expandRound_length hE k1 x) n

theorem ctrDf_bytes (h4 : 4 ≤ outlen) (kl : Nat) (k0 seed : Bytes) (nbits : Nat) :
    (ctrDf E outlen kl k0 seed nbits).bytes = ctrDfClosed E outlen kl k0 seed nbits := by
  simp only [ctrDf, ctrDfClosed, chainStage_eq hE h4, expandStage_eq hE (show 0 < outlen by omega)]

/-- The expansion gives at least the `nbits / 8` bytes it is cut to. -/
theorem ctrDfClosed_length (h4 : 4 ≤ outlen) (kl : Nat) (k0 seed : Bytes) (nbits : Nat) :
    (ctrDfClosed E outlen kl k0 seed nbits).length = nbits / 8 := by
  apply List.length_take_of_le
  rw [expandedFrom_length hE]
  exact le_ceilDiv_mul (by omega) _

theorem ctrDf_reqs_length (h4 : 4 ≤ outlen) (kl : Nat) (k0 seed : Bytes) (nbits : Nat) :
    (ctrDf E outlen kl k0 seed nbits).reqs.length =
      chainRounds kl outlen * (1 + ceilDiv (seed.length + 9) outlen) +
        ceilDiv (nbits / 8) outlen := by
  have hpos : 0 < outlen := by omega
  simp only [ctrDf, chainStage_eq hE h4, expandStage_eq hE hpos, List.length_append]
  rw [length_flatMap_range (chainRound_reqs_length E h4 k0 _), paddedString_length hpos,
    Nat.mul_div_cancel_left _ hpos, length_flatMap_range (w := 1) fun _ => rfl, Nat.mul_one]

end Stages

/-- Settles O20: the stage is its counted form, whose rounds are alike in length and calls. -/
theorem chainStageRounds : Obligations.ChainStageRounds := by
  intro E outlen kl k0 str hE h4
  have hlen := tempOf_length hE kl k0 str
  simp only [chainStage_eq hE h4, true_and]
  refine ⟨hlen, ?_, length_flatMap_range (chainRound_reqs_length E h4 k0 str) _⟩
  rw [hlen]
  exact le_ceilDiv_mul (by omega) _

/-! ### The command (R140, R149) -/

section Checks
variable {s : State} {seed : Bytes} {nbits : Nat}

/-! What CTR_DF answers by its checks, in their order. -/

theorem State.ctrDfAnswer_of_invalid (hbits : nbits = 0 ∨ nbits % 8 ≠ 0) :
    s.ctrDfAnswer seed nbits = .error .invalidLength := by
  rw [State.ctrDfAnswer, ctrDfCheck, if_pos hbits]

theorem State.ctrDfAnswer_of_exceeds (h8 : nbits % 8 = 0)
    (hmax : s.params.maxDfBits < nbits) : s.ctrDfAnswer seed nbits = .error .lengthExceeded := by
  rw [State.ctrDfAnswer, ctrDfCheck, if_neg (by omega), if_pos hmax]

theorem State.ctrDfAnswer_of_checks (h0 : nbits ≠ 0) (h8 : nbits % 8 = 0)
    (hmax : nbits ≤ s.params.maxDfBits) : s.ctrDfAnswer seed nbits =
      .ok (ctrDf s.cipher s.outlen s.keyBytes s.chainingKey seed nbits) := by
  rw [State.ctrDfAnswer, ctrDfCheck, if_neg (by omega), if_neg (by omega)]

theorem State.ctrDfCommand_of_digest (hp : s.cfg.prim = .digest) :
    s.ctrDfCommand seed nbits = .error .unsupportedOperation := by
  simp [State.ctrDfCommand, hp]

theorem State.ctrDfCommand_of_not_keyOK (hp : s.cfg.prim = .cipher) (hk : s.keyOK = false) :
    s.ctrDfCommand seed nbits = .error .unsupportedKeySize := by
  simp [State.ctrDfCommand, hp, hk]

/-- After the checks of the configuration, those of `ctr_df` decide. -/
theorem State.ctrDfCommand_of_keyOK (hp : s.cfg.prim = .cipher) (hk : s.keyOK = true) :
    s.ctrDfCommand seed nbits = s.ctrDfAnswer seed nbits := by
  simp [State.ctrDfCommand, hp, hk]

end Checks

/-- Settles O23: each failing check answers with its error where the checks before it pass. -/
theorem ctrDfFailsInOrder : Obligations.CtrDfFailsInOrder := by
  intro nbits seed s
  have fails {e : ErrorCode} (h : s.ctrDfCommand seed nbits.toNat = .error e) :
      ∃ t, exec (.ctrDf nbits seed) s = .next t ∧ FailsWith s t e.code :=
    exec_fails h
  exact ⟨fun hp => fails (State.ctrDfCommand_of_digest hp),
    fun hp hk => fails (State.ctrDfCommand_of_not_keyOK hp hk),
    fun hp hk hbits => fails
      ((State.ctrDfCommand_of_keyOK hp hk).trans (State.ctrDfAnswer_of_invalid hbits)),
    fun hp hk _ h8 hmax => fails
      ((State.ctrDfCommand_of_keyOK hp hk).trans (State.ctrDfAnswer_of_exceeds h8 hmax))⟩

theorem answerOf_ctrDf_of_checks {nbits : BitVec 32} (seed : Bytes) {s : State}
    (hp : s.cfg.prim = .cipher) (hk : s.keyOK = true) (h0 : nbits.toNat ≠ 0)
    (h8 : nbits.toNat % 8 = 0) (hmax : nbits.toNat ≤ s.params.maxDfBits) :
    answerOf (.ctrDf nbits seed) s =
      .ok (ctrDf s.cipher s.outlen s.keyBytes s.chainingKey seed nbits.toNat) :=
  (State.ctrDfCommand_of_keyOK hp hk).trans (State.ctrDfAnswer_of_checks h0 h8 hmax)

/-- Settles O21: the answer is `ctrDf`, whose bytes are those of the counted form (`ctrDf_bytes`). -/
theorem ctrDfCompletes : Obligations.CtrDfCompletes := by
  intro nbits seed s hw hp hk h0 h8 hmax
  obtain ⟨-, h4, -⟩ := State.wfConfig_cipher hw hp
  have hE := State.cipher_length_outlen hw hp
  have hbytes := ctrDf_bytes hE h4 s.keyBytes s.chainingKey seed nbits.toNat
  have hlen := ctrDfClosed_length hE h4 s.keyBytes s.chainingKey seed nbits.toNat
  rw [← hbytes] at hlen ⊢
  obtain ⟨t, hexec, hdone⟩ :=
    exec_completes (answerOf_ctrDf_of_checks seed hp hk h0 h8 hmax) (by omega)
  exact ⟨t, _, hexec, hdone, hdone.len.trans hlen⟩

/-- The longest key and the shortest block give 9 chaining rounds (R249). -/
theorem chainRounds_le {kl outlen : Nat} (hkl : kl ≤ 32) (h4 : 4 ≤ outlen) :
    chainRounds kl outlen ≤ 9 :=
  (ceilDiv_le_iff (by omega) _ _).mpr (by omega)

/-- Settles O22: the completed command has recorded the requests of `ctrDf` (`ctrDf_reqs_length`). -/
theorem ctrDfWork : Obligations.CtrDfWork := by
  intro nbits seed s t hw hp hk h0 h8 hmax hexec
  obtain ⟨-, h4, -⟩ := State.wfConfig_cipher hw hp
  obtain ⟨-, -, hkl⟩ := State.keyBytes_of_keyOK hk
  rw [exec_next_iff, answerOf_ctrDf_of_checks seed hp hk h0 h8 hmax, State.complete_ok] at hexec
  rw [hexec, State.respond_primReqs]
  exact ⟨ctrDf_reqs_length (State.cipher_length_outlen hw hp) h4 _ _ _ _, chainRounds_le hkl h4⟩

end Sys2Proof.Machine
end

section
/-! PROOFS, 43_hashgen.md: the hash expansion and the command HASHGEN. Incrementing `V + i` gives
`V + (i + 1)` (`incrementModPow2_counterPlus`), so round `i` of the loop, counted from 0, digests
`V + i` and the loop is its counted form (`digestLoop_eq`), from which the result and the requests
of `hashgen` are read off (`hashgen_eq`). -/

namespace Sys2Proof.Machine

/-! ### The counter `V + i` (R172) -/

@[simp] theorem counterPlus_length (v : Bytes) (i : Nat) : (counterPlus v i).length = v.length :=
  bytesBE_length _ _

theorem intBE_counterPlus (v : Bytes) (i : Nat) :
    intBE (counterPlus v i) = (intBE v + i) % 2 ^ (8 * v.length) := by
  rw [counterPlus, intBE_bytesBE_mod, Nat.mod_mod]

@[simp] theorem counterPlus_zero (v : Bytes) : counterPlus v 0 = v := by
  apply eq_of_intBE_eq (counterPlus_length v 0)
  rw [intBE_counterPlus, Nat.add_zero, Nat.mod_eq_of_lt (intBE_lt v)]

/-- The running value of the loop counts up from `V`, also across a wrap. -/
theorem incrementModPow2_counterPlus (v : Bytes) (i : Nat) :
    incrementModPow2 (counterPlus v i) = counterPlus v (i + 1) := by
  apply incrementModPow2_eq_of_intBE
  · simp
  · rw [intBE_counterPlus, intBE_counterPlus, counterPlus_length, Nat.mod_add_mod, Nat.add_assoc]

/-! ### The function `hashgen` (R171 to R174, R177) -/

/-- Round `i` of the loop: one call of `H`, on `V + i` (R172). -/
def digestRound (H : Digest) (v : Bytes) (i : Nat) : Traced :=
  ⟨H (counterPlus v i), [.digest (counterPlus v i)]⟩

/-- From `V + i`, the loop of `m` rounds appends the rounds `i`, ... `i + m − 1`. -/
theorem digestLoop_eq (H : Digest) (v : Bytes) (m i : Nat) (out : Traced) :
    digestLoop H m (counterPlus v i) out =
      out.appendAll ((List.range' i m).map (digestRound H v)) := by
  induction m generalizing i out with
  | zero => exact out.appendAll_nil.symm
  | succ m ih =>
    rw [digestLoop, incrementModPow2_counterPlus, ih, List.range'_succ, List.map_cons,
      Traced.appendAll_cons, digestRound]

/-- From nothing, the loop of `m` rounds makes one digest and one request for each of `V`, `V + 1`,
... `V + m − 1`. -/
theorem digestLoop_empty (H : Digest) (v : Bytes) (m : Nat) :
    digestLoop H m v Traced.empty =
      ⟨(List.range m).flatMap fun i => H (counterPlus v i),
        (List.range m).map fun i => .digest (counterPlus v i)⟩ := by
  calc digestLoop H m v Traced.empty
      = digestLoop H m (counterPlus v 0) Traced.empty := by rw [counterPlus_zero]
    _ = Traced.empty.appendAll ((List.range' 0 m).map (digestRound H v)) := digestLoop_eq ..
    _ = _ := by
      simp [Traced.appendAll, Traced.empty, digestRound, List.range_eq_range', List.flatMap_map,
        ← List.map_eq_flatMap]

/-- `hashgen` is its form without a loop, with one request per digest (R171 to R174). -/
theorem hashgen_eq (H : Digest) (outlen : Nat) (v : Bytes) (nbits : Nat) :
    hashgen H outlen v nbits = ⟨hashgenClosed H outlen v nbits, hashgenRequests outlen v nbits⟩ := by
  simp only [hashgen, digestLoop_empty, hashgenClosed, hashgenRequests]

/-- The digests give at least the `nbits / 8` bytes they are cut to (R173). -/
theorem hashgenClosed_length {H : Digest} {outlen : Nat} (hH : ∀ b, (H b).length = outlen)
    (hpos : 0 < outlen) (v : Bytes) (nbits : Nat) :
    (hashgenClosed H outlen v nbits).length = nbits / 8 := by
  apply List.length_take_of_le
  rw [length_flatMap_range fun i => hH (counterPlus v i)]
  exact le_ceilDiv_mul hpos _

/-- Settles O27: no bytes need no digest, and up to `OUTLEN` bytes need one, that of `V + 0`. -/
theorem hashgenWithinOneDigest : Obligations.HashgenWithinOneDigest := by
  intro H outlen v nbits hpos hle _
  rw [hashgen_eq, hashgenClosed]
  rcases Nat.eq_zero_or_pos (nbits / 8) with hnone | hsome
  · rw [hnone, List.take_zero, List.take_zero]
  · have hone : ceilDiv (nbits / 8) outlen = 1 := ceilDiv_eq_of_bounds (by omega) (by omega)
    rw [hone, List.range_one, List.flatMap_singleton, counterPlus_zero]

/-! ### The command (R170, R176) -/

section Checks
variable {s : State} {v : Bytes} {nbits : Nat}

/-! What HASHGEN answers by its checks, in their order. -/

theorem State.hashgenAnswer_of_unaligned (h8 : nbits % 8 ≠ 0) :
    s.hashgenAnswer v nbits = .error .invalidLength := by
  rw [State.hashgenAnswer, hashgenCheck, if_pos h8]

theorem State.hashgenAnswer_of_exceeds (h8 : nbits % 8 = 0)
    (hmax : s.params.maxHashgenBits < nbits) :
    s.hashgenAnswer v nbits = .error .lengthExceeded := by
  rw [State.hashgenAnswer, hashgenCheck, if_neg (not_not.mpr h8), if_pos hmax]

theorem State.hashgenAnswer_of_checks (h8 : nbits % 8 = 0)
    (hmax : nbits ≤ s.params.maxHashgenBits) :
    s.hashgenAnswer v nbits = .ok (hashgen s.digest s.outlen v nbits) := by
  rw [State.hashgenAnswer, hashgenCheck, if_neg (not_not.mpr h8), if_neg (not_lt.mpr hmax)]

theorem State.hashgenCommand_of_cipher (hp : s.cfg.prim = .cipher) :
    s.hashgenCommand v nbits = .error .unsupportedOperation := by
  simp [State.hashgenCommand, hp]

/-- After the check of the variant, those of `hashgen` decide. -/
theorem State.hashgenCommand_of_digest (hp : s.cfg.prim = .digest) :
    s.hashgenCommand v nbits = s.hashgenAnswer v nbits := by
  simp [State.hashgenCommand, hp]

end Checks

/-- The digest of a well-formed configuration answers with `OUTLEN` bytes. -/
theorem State.digest_length_outlen {s : State} (hw : s.wfConfig = true) (hp : s.cfg.prim = .digest)
    (message : Bytes) : (s.digest message).length = s.outlen := by
  obtain ⟨hsize, -, -⟩ := State.wfConfig_digest hw hp
  rw [s.digest_length, hsize]

/-- Settles O26: each failing check answers with its error where the checks before it pass. -/
theorem hashgenFailsInOrder : Obligations.HashgenFailsInOrder := by
  intro nbits v s
  have fails {e : ErrorCode} (h : s.hashgenCommand v nbits.toNat = .error e) :
      ∃ t, exec (.hashgen nbits v) s = .next t ∧ FailsWith s t e.code :=
    exec_fails h
  exact ⟨fun hp => fails (State.hashgenCommand_of_cipher hp),
    fun hp h8 => fails
      ((State.hashgenCommand_of_digest hp).trans (State.hashgenAnswer_of_unaligned h8)),
    fun hp h8 hmax => fails
      ((State.hashgenCommand_of_digest hp).trans (State.hashgenAnswer_of_exceeds h8 hmax))⟩

/-- Settles O25: the answer is `hashgen`, whose result and requests are those of the statement
(`hashgen_eq`), and `NBITS / 8` bytes long. -/
theorem hashgenCompletes : Obligations.HashgenCompletes := by
  intro nbits v s hw hp h8 hmax
  obtain ⟨-, hpos, -⟩ := State.wfConfig_digest hw hp
  have hlen := hashgenClosed_length (State.digest_length_outlen hw hp) hpos v nbits.toNat
  have hanswer : answerOf (.hashgen nbits v) s = .ok ⟨hashgenClosed s.digest s.outlen v nbits.toNat,
      hashgenRequests s.outlen v nbits.toNat⟩ := by
    rw [← hashgen_eq]
    exact (State.hashgenCommand_of_digest hp).trans (State.hashgenAnswer_of_checks h8 hmax)
  obtain ⟨t, hexec, hdone⟩ := exec_completes hanswer (by rw [hlen]; omega)
  exact ⟨t, hexec, hdone, hdone.len.trans hlen⟩

end Sys2Proof.Machine
end

section
/-! PROOFS, 44_df_contract.md: the four commands of the contract. DF_DERIVE is CTR_DF with
`NBITS = CFG_SEEDLEN_BITS` and DF_GENERATE is HASHGEN (`contractIsItsAlgorithm`), so what the
algorithms' own statements say of these two is said of the contract's commands. -/

namespace Sys2Proof.Machine

/-! ### DF_SEEDLEN and DF_STRENGTH (R191, R192) -/

/-- A command that answers with `encodeUint32` of a number completes with its 4 bytes and makes no
request. -/
theorem exec_completes_of_encodeUint32 {i : Instr} {s : State} {n : Nat}
    (hanswer : answerOf i s = .ok ⟨encodeUint32 n, []⟩) :
    ∃ t, exec i s = .next t ∧ CompletesWith s t (encodeUint32 n) [] :=
  exec_completes hanswer (by simp)

/-- Settles O28: the answer is `encodeUint32` of a 32-bit register. -/
theorem dfSeedlenCompletes : Obligations.DfSeedlenCompletes := by
  intro s
  rw [← encodeUint32_toNat]
  exact exec_completes_of_encodeUint32 rfl

/-- `encodeUint32` of a 16-bit value is two zero bytes and its own two, most significant first
(R100, R192). -/
theorem encodeUint32_toNat_of_width16 (v : BitVec 16) :
    encodeUint32 v.toNat = [0x00, 0x00, v.extractLsb' 8 8, v.extractLsb' 0 8] := by
  have hv : v.toNat < 2 ^ 16 := v.isLt
  have htop : v.toNat / 2 ^ 24 = 0 := Nat.div_eq_of_lt (by omega)
  have hnext : v.toNat / 2 ^ 16 = 0 := Nat.div_eq_of_lt hv
  calc encodeUint32 v.toNat
      = [BitVec.ofNat 8 (v.toNat / 2 ^ 24), BitVec.ofNat 8 (v.toNat / 2 ^ 16),
          BitVec.ofNat 8 (v.toNat / 2 ^ 8), BitVec.ofNat 8 (v.toNat / 2 ^ 0)] := rfl
    _ = _ := by
      rw [htop, hnext, BitVec.extractLsb', BitVec.extractLsb', Nat.shiftRight_eq_div_pow,
        Nat.shiftRight_eq_div_pow]
      rfl

/-- Settles O29: the answer is `encodeUint32` of a 16-bit register. -/
theorem dfStrengthCompletes : Obligations.DfStrengthCompletes := by
  intro s
  rw [← encodeUint32_toNat_of_width16]
  exact exec_completes_of_encodeUint32 rfl

/-! ### DF_DERIVE and DF_GENERATE (R190, R193, R194) -/

/-- The multiplexer and CTR_DF check the variant and the key size alike (R149, R190). -/
theorem State.deriveAnswer_eq_ctrDfCommand (s : State) (seed : Bytes) :
    s.deriveAnswer seed = s.ctrDfCommand seed s.seedlen := by
  cases hp : s.cfg.prim with
  | cipher => rw [State.ctrDfCommand, if_neg (not_not.mpr hp), State.deriveAnswer, hp]
  | digest => rw [State.ctrDfCommand_of_digest hp, State.deriveAnswer, hp]

/-- The multiplexer and HASHGEN check the variant alike (R176, R190). -/
theorem State.generateAnswer_eq_hashgenCommand (s : State) (v : Bytes) (nbits : Nat) :
    s.generateAnswer v nbits = s.hashgenCommand v nbits := by
  cases hp : s.cfg.prim with
  | cipher => rw [State.hashgenCommand_of_cipher hp, State.generateAnswer, hp]
  | digest => rw [State.hashgenCommand_of_digest hp, State.generateAnswer, hp]

/-- Instructions with one answer have one outcome. -/
theorem exec_eq_of_answer_eq {i j : Instr} {s : State} (h : answerOf i s = answerOf j s) :
    exec i s = exec j s := by
  rw [exec_eq, exec_eq, h]

theorem exec_dfDerive (seed : Bytes) (s : State) :
    exec (.dfDerive seed) s = exec (.ctrDf s.cfg.seedlenBits seed) s :=
  exec_eq_of_answer_eq (s.deriveAnswer_eq_ctrDfCommand seed)

theorem exec_dfGenerate (nbits : BitVec 32) (v : Bytes) (s : State) :
    exec (.dfGenerate nbits v) s = exec (.hashgen nbits v) s :=
  exec_eq_of_answer_eq (s.generateAnswer_eq_hashgenCommand v nbits.toNat)

/-- Settles O34: each command of the contract gives the answer of its algorithm's command. -/
theorem contractIsItsAlgorithm : Obligations.ContractIsItsAlgorithm :=
  ⟨exec_dfDerive, exec_dfGenerate⟩

/-- Settles O30: DF_DERIVE is CTR_DF, which completes so with `NBITS = CFG_SEEDLEN_BITS`. -/
theorem dfDeriveCompletes : Obligations.DfDeriveCompletes := by
  intro seed s
  rw [exec_dfDerive]
  exact ctrDfCompletes s.cfg.seedlenBits seed s

/-- Settles O31: DF_DERIVE is CTR_DF, which fails so with `NBITS = CFG_SEEDLEN_BITS`. -/
theorem dfDeriveFailsInOrder : Obligations.DfDeriveFailsInOrder := by
  intro seed s
  rw [exec_dfDerive]
  exact ctrDfFailsInOrder s.cfg.seedlenBits seed s

/-- Settles O32: DF_GENERATE is HASHGEN. -/
theorem dfGenerateCompletes : Obligations.DfGenerateCompletes := by
  intro nbits v s
  rw [exec_dfGenerate]
  exact hashgenCompletes nbits v s

/-- Settles O33: DF_GENERATE is HASHGEN. -/
theorem dfGenerateFailsInOrder : Obligations.DfGenerateFailsInOrder := by
  intro nbits v s
  rw [exec_dfGenerate]
  exact hashgenFailsInOrder nbits v s

end Sys2Proof.Machine
end

section
/-! PROOFS, 60_exceptions.md: how a command ends (R210, R211, R214), the hand-over of its response
(R215) and the refusal of an ill-formed configuration (R226). A command ends by `State.complete` alone
(`step_busy`), so what a completion leaves is said of `State.complete` for every answer. -/

namespace Sys2Proof.Machine

/-! ### What a completion leaves (R210, R211, R214) -/

theorem step_busy_next {s t : State} {c : Command} (hrun : s.running = true)
    (hphase : s.phase = .busy c) (hstep : step s = .next t) :
    t = s.tick.complete (commandAnswer c s.tick) := by
  rw [step_busy hrun hphase, Host.Outcome.next.injEq] at hstep
  exact hstep.symm

/-- Settles O41: the frame of a completion (`State.complete_frame`), which ends in DONE. -/
theorem completionWritesOnlyResponse : Obligations.CompletionWritesOnlyResponse := by
  intro s t c hrun hphase hstep
  have hdone : t.phase = .done := by rw [step_busy_next hrun hphase hstep, State.complete_phase]
  refine ⟨hdone, ?_, fun hrst => t.rspValid_iff.mpr ⟨hdone, hrst⟩⟩
  rw [step_busy_next hrun hphase hstep]
  exact State.complete_frame _ _

/-- A completion with a status other than `OK` is that of an error. -/
theorem State.complete_fails {s : State} {r : Except ErrorCode Traced}
    (h : (s.complete r).rspStatus ≠ 0x00) : ∃ e : ErrorCode, FailsWith s (s.complete r) e.code := by
  cases r with
  | ok result => exact absurd (s.respond_rspStatus result) h
  | error e => exact ⟨e, s.raise_fails e⟩

/-- Settles O43: such a completion is one of `State.raise` (`State.complete_fails`). -/
theorem errorGivesNoOutput : Obligations.ErrorGivesNoOutput := by
  intro s t c hrun hphase hstep hstatus
  rw [step_busy_next hrun hphase hstep] at hstatus ⊢
  obtain ⟨e, hfails⟩ := State.complete_fails hstatus
  exact ⟨⟨e, hfails.status⟩, hfails.len, hfails.data, hfails.requests⟩

theorem State.complete_status_le (s : State) (r : Except ErrorCode Traced) :
    (s.complete r).rspStatus.toNat ≤ 6 := by
  cases r with
  | ok result => exact Nat.zero_le 6
  | error e => exact of_decide_eq_true e.code_legal

/-! ### From acceptance to completion (R210, R247) -/

/-- An idle running engine accepts the command that is presented to it. -/
theorem step_accept {s : State} (hrun : s.running = true) (hphase : s.phase = .idle)
    (hvalid : s.pins.cmdValid = true) : step s = .next s.accept.tick := by
  obtain ⟨hrst, -, -⟩ := s.running_iff.mp hrun
  have htransfer : s.cmdTransfer = true := by
    rw [State.cmdTransfer, hvalid, s.cmdReady_iff.mpr ⟨hphase, hrst⟩, Bool.true_and]
  simp only [step_running hrun, hphase, State.idleStep, htransfer, if_true]

/-- The engine runs on after acceptance, unless reset comes. -/
theorem State.running_accept_tick {s : State} (hrun : s.running = true)
    (hrst : s.tick.pins.rst = false) : s.accept.tick.running = true := by
  obtain ⟨-, hreset, hw⟩ := s.running_iff.mp hrun
  exact (State.running_iff _).mpr ⟨hrst, hreset, hw⟩

/-- Settles O46: the first step accepts the command, the second completes it with its answer. -/
theorem acceptedCommandCompletes : Obligations.AcceptedCommandCompletes := by
  intro s hrun hphase hvalid hrst
  exact ⟨s.accept.tick, _, step_accept hrun hphase hvalid,
    step_busy (State.running_accept_tick hrun hrst) rfl, State.complete_phase _ _,
    State.complete_status_le _ _⟩

/-! ### The fall of `rst` on an ill-formed configuration (R10, R226) -/

/-- `WF_CFG` fails on the size of the primitive that is present, or on the operand limit (R9, R10). -/
theorem wfCfg_eq_false_iff (p : Config.Params) (c : Cfg) :
    wfCfg p c = false ↔
      (c.prim = .cipher ∧
        (c.outlenBytes.toNat ≠ p.cipher.blockBytes ∨ c.outlenBytes.toNat < 4)) ∨
      (c.prim = .digest ∧
        (c.outlenBytes.toNat ≠ p.digest.digestBytes ∨ c.outlenBytes.toNat < 1)) ∨
      2 ^ 32 ≤ p.maxOperandBytes := by
  cases hp : c.prim
  all_goals
    simp only [wfCfg, hp, Bool.and_eq_false_iff, decide_eq_false_iff_not, reduceCtorEq, true_and,
      false_and, false_or]
    omega

theorem Prim.ofBit_eq_digest_iff (b : BitVec 1) : Prim.ofBit b = .digest ↔ b = 1 := by
  obtain rfl | rfl := BitVec.eq_zero_or_eq_one b <;> decide

/-- At the fall of `rst` the engine is refused exactly on an ill-formed configuration. -/
theorem step_fall_refused_iff {s : State} (hrst : s.pins.rst = false) (hreset : s.inReset = true) :
    step s = .refused .illFormedConfig ↔ wfCfg s.params (Cfg.sample s.pins) = false := by
  cases hw : wfCfg s.params (Cfg.sample s.pins) with
  | true => simp [step_of_fall hrst hreset hw]
  | false =>
    have hwf : s.leaveReset.wfConfig = false := hw
    simp [step, State.action, hrst, hreset, State.fallOfReset, hwf]

/-- Settles O36: the refusal is the failure of `WF_CFG` on the sampled inputs
(`step_fall_refused_iff`), and `cfg_prim` names the primitive. -/
theorem illFormedConfigIsRefused : Obligations.IllFormedConfigIsRefused := by
  intro s hrst hreset
  rw [step_fall_refused_iff hrst hreset, wfCfg_eq_false_iff, ← Prim.ofBit_eq_cipher_iff,
    ← Prim.ofBit_eq_digest_iff]
  rfl

/-! ### The hand-over of the response (R215, R245) -/

/-- The step of a running engine in DONE: the host takes the response, or it waits. -/
theorem step_done {s : State} (hrun : s.running = true) (hphase : s.phase = .done) :
    step s = .next (if s.pins.rspReady then s.takeResponse.tick else s.tick) := by
  obtain ⟨hrst, -, -⟩ := s.running_iff.mp hrun
  have hvalid : s.rspValid = true := s.rspValid_iff.mpr ⟨hphase, hrst⟩
  simp only [step_running hrun, hphase, State.doneStep, State.rspTransfer, hvalid, Bool.true_and]

/-- Settles O40: the two outcomes of `step_done`; a taken response leaves everything but `PHASE` and
the ports. -/
theorem responseHandOver : Obligations.ResponseHandOver := by
  intro s hrun hphase
  obtain ⟨hrst, -, -⟩ := s.running_iff.mp hrun
  have hbusy : s.cmdReady = false := by simp [State.cmdReady, hphase]
  refine ⟨s.rspValid_iff.mpr ⟨hphase, hrst⟩, hbusy, fun hwait => ?_, fun htaken => ?_⟩
  · simp [step_done hrun hphase, hwait]
  · exact ⟨s.takeResponse.tick, by simp [step_done hrun hphase, htaken], rfl, ⟨rfl, rfl, rfl⟩, rfl,
      rfl, rfl, rfl, rfl, fun hlow => (State.cmdReady_iff _).mpr ⟨rfl, hlow⟩⟩

end Sys2Proof.Machine
end

section
/-! PROOFS, 70_reset_and_hazards.md: the fixed-key ROM (R27, R242), the state after reset (R240) and
its invariant, and the two steps from an idle engine: acceptance (R244) and the fall of `rst` (R240,
R241). -/

namespace Sys2Proof.Machine

/-! ### The fixed-key ROM (R27, R242) -/

@[simp] theorem State.complete_kFixed (s : State) (r : Except ErrorCode Traced) :
    (s.complete r).kFixed = s.kFixed :=
  (s.complete_frame r).kFixed

theorem fixedKey_getElem : ∀ j : Fin 32, fixedKey[j] = BitVec.ofNat 8 j.val := by
  decide

/-- No operation of a step writes the ROM, in reset or out of it. -/
theorem step_kFixed {s t : State} (hstep : step s = .next t) : t.kFixed = s.kFixed := by
  obtain ⟨-, rfl⟩ | ⟨-, -, -, rfl⟩ | ⟨-, hphase⟩ := step_next_cases hstep
  · rfl
  · exact s.leaveReset.idleStep_kFixed
  · obtain ⟨-, rfl⟩ | ⟨-, rfl⟩ | ⟨c, -, ⟨i, -, rfl⟩ | ⟨e, -, rfl⟩⟩ := hphase
    · exact s.idleStep_kFixed
    · exact s.doneStep_kFixed
    · exact s.tick.complete_kFixed _
    · rfl

/-- Settles O48: the bytes of the ROM (`fixedKey_getElem`), which no step writes
(`step_kFixed`). -/
theorem fixedKeyNeverWritten : Obligations.FixedKeyNeverWritten :=
  ⟨fixedKey_getElem, fun _ _ => step_kFixed⟩

/-! ### The state after reset (R240) -/

/-- The configuration of the state after reset is the one its ports show (R241, R243). -/
theorem reset_cfg_sampled : State.reset.cfg = Cfg.sample State.reset.pins := rfl

/-- Settles O51: the ROM counts up from 0 (`fixedKey_toList`), an idle engine with `rst` at 0 is
ready (`State.cmdReady_iff`), and the registers hold the values written in `State.reset`. -/
theorem resetStateValues : Obligations.ResetStateValues :=
  ⟨rfl, rfl, rfl, rfl, reset_cfg_sampled, fixedKey_toList, (State.cmdReady_iff _).mpr ⟨rfl, rfl⟩⟩

/-- The sampled block size is that of the cipher of `State.reset` (R10). -/
theorem reset_wfConfig : State.reset.wfConfig = true := by
  decide

/-- Settles O52: the state after reset is idle with the ROM, a well-formed configuration and the
reset response, which is what the invariant needs (`State.Inv.of_resetResponse`). -/
theorem resetMeetsInvariant : Obligations.ResetMeetsInvariant :=
  .of_resetResponse rfl reset_wfConfig rfl rfl rfl rfl rfl

/-! ### Acceptance (R223, R244) -/

theorem State.cmdReady_of_busy {s : State} {c : Command} (h : s.phase = .busy c) :
    s.cmdReady = false := by
  simp [State.cmdReady, h]

/-- An idle running engine to which no command is presented holds its state. -/
theorem step_wait {s : State} (hrun : s.running = true) (hphase : s.phase = .idle)
    (hvalid : s.pins.cmdValid = false) : step s = .next s.tick := by
  simp [step_running hrun, hphase, State.idleStep, State.cmdTransfer, hvalid]

/-- Settles O39: a presented command is accepted (`step_accept`), which writes `PHASE` alone;
without one nothing happens (`step_wait`). -/
theorem idleEngineAccepts : Obligations.IdleEngineAccepts := by
  intro s hrun hphase
  obtain ⟨hrst, -, -⟩ := s.running_iff.mp hrun
  refine ⟨s.cmdReady_iff.mpr ⟨hphase, hrst⟩, fun hvalid => ?_, step_wait hrun hphase⟩
  exact ⟨s.accept.tick, step_accept hrun hphase hvalid, rfl, State.cmdReady_of_busy rfl,
    ⟨rfl, rfl, rfl⟩, rfl, rfl, rfl, rfl, rfl⟩

/-! ### The fall of `rst` (R240, R241) -/

/-- An engine that has left reset on a well-formed configuration runs, unless `rst` rises again. -/
theorem State.running_leaveReset_idleStep {s : State}
    (hw : wfCfg s.params (Cfg.sample s.pins) = true)
    (hlow : s.leaveReset.idleStep.pins.rst = false) : s.leaveReset.idleStep.running = true := by
  refine (State.running_iff _).mpr ⟨hlow, by simp, ?_⟩
  rw [State.wfConfig, State.idleStep_params, State.idleStep_cfg]
  exact hw

/-- The fall of `rst` leaves the engine ready exactly if it accepted no command in that step. -/
theorem State.cmdReady_leaveReset_idleStep {s : State} (hrst : s.pins.rst = false)
    (hlow : s.leaveReset.idleStep.pins.rst = false) :
    s.leaveReset.idleStep.cmdReady = true ↔ s.pins.cmdValid = false := by
  have hphase := State.idleStep_phase (s := s.leaveReset) rfl hrst
  rw [State.cmdReady_iff, and_iff_left hlow, hphase, s.leaveReset_pins]
  cases s.pins.cmdValid <;> simp

/-- Settles O50: the engine leaves reset with every register at its reset value (`step_of_fall`,
`State.leaveReset`), and the step from IDLE that ends the fall writes `PHASE` alone
(`State.idleStep_phase`). -/
theorem fallOfResetLoadsState : Obligations.FallOfResetLoadsState := by
  intro s hrst hreset hw
  refine ⟨s.leaveReset.idleStep, step_of_fall hrst hreset hw, State.idleStep_phase rfl hrst,
    State.idleStep_rspStatus _, State.idleStep_rspLen _, State.idleStep_rspData _,
    State.idleStep_primReqs _, State.idleStep_cfg _, State.idleStep_kFixed _,
    State.idleStep_params _, fun hlow => ?_⟩
  exact ⟨State.running_leaveReset_idleStep hw hlow, State.cmdReady_leaveReset_idleStep hrst hlow⟩

end Sys2Proof.Machine
end
